-- ==== Sys2Proof/Word.lean ====
section
/-!
DEFINITION. The word and byte types and the closed sets of names of EVMBX: event tags, sequencer states, ports,
bus answers, fault causes (spec/00_scope.md R7, R10; spec/30_encoding.md R70, R77, R89; spec/60_exceptions.md R211).
-/

namespace Sys2Proof

/-- A command word or a result word (R7, R51). -/
abbrev Word := BitVec 32

/-- A byte of a bus transfer or of a platform's byte bus (R51, R89). -/
abbrev Byte := BitVec 8

/-- The event tags, in the source's listing order (R10, R77); `idle` is the empty mailbox (R23). -/
inductive Event where
  | idle
  | measureRequested
  | deferredTimerFired
  | transferDone
  | transferError
  | linkLost
  deriving DecidableEq, Repr, Inhabited

/-- The sequencer states, in the source's listing order (R10, R25). -/
inductive SeqState where
  | sensorOff
  | awaitingPowerUp
  | awaitingWriteCompletion
  | awaitingReadCompletion
  deriving DecidableEq, Repr, Inhabited

/-- The ports, one agent each (R70). `prod k` exists for k below the parameter NPROD. -/
inductive Port where
  | cons
  | prod (k : Nat)
  | clk
  | cmp
  deriving DecidableEq, Repr, Inhabited

/-- The bus collaborator's answer to a begin command (R89). -/
inductive BusReply where
  | accepted
  | rejected
  deriving DecidableEq, Repr, Inhabited

/-- The fault causes (R211), in the order of their codes 1 to 7. -/
inductive Cause where
  | illegalOp
  | badPort
  | rsvBits
  | badTag
  | badLevel
  | blkOverflow
  | blkUnderflow
  deriving DecidableEq, Repr, Inhabited

end Sys2Proof
end

