-- ==== Sys2Proof/Syntax.lean ====
section
/-!
DEFINITION. The commands of EVMBX: one constructor per row of spec/opcode_table.json (spec/30_encoding.md R80), with the
operands of its format (R73 to R76).
-/

namespace Sys2Proof

/-- A decoded command. A tag is one of the six events (R77); a level is the raw 4-bit field LVL, whose legal range depends
on the parameter M (R78); an offset is the 24-bit field OFF, every value legal (R79). -/
inductive Instr where
  /-- SIGNAL, post an event (R101). -/
  | signal (tag : Event)
  /-- HASPEND, test for a pending event (R102). -/
  | haspend
  /-- TAKE, read and clear the slot (R103). -/
  | take
  /-- ADVANCE, apply the transition table to an event (R120). -/
  | advance (tag : Event)
  /-- ARM, arm the deadline (R161). -/
  | arm (off : BitVec 24)
  /-- DISARM, cancel the deadline (R162). -/
  | disarm
  /-- BLOCK, add one block of a mode (R181). -/
  | block (lvl : BitVec 4)
  /-- UNBLOCK, remove one block of a mode (R182). -/
  | unblock (lvl : BitVec 4)
  /-- GATE, one iteration of the power-gate loop (R183). -/
  | gate
  /-- RDSTAT, read the status word (R200). -/
  | rdstat
  /-- RDBLK, read one sleep-block count (R201). -/
  | rdblk (lvl : BitVec 4)
  /-- CLRSTAT, clear the warnings and the drop counter (R202). -/
  | clrstat
  /-- TICK, one count of the free-running counter (R163). -/
  | tick
  /-- CMPSVC, the comparator's interrupt service (R164). -/
  | cmpsvc
  deriving DecidableEq, Repr

end Sys2Proof
end

