-- ==== Sys2Proof/Decode.lean ====
section
/-!
DEFINITION. The decoder, total on every port and word and rejecting by cause in the order of spec/30_encoding.md R84, the
encoder, the byte order of a platform's byte bus (spec/20_memory.md R51), and `decodeTableWord`.
-/

namespace Sys2Proof

/-! ## The opcode map -/

/-- The word formats of R73 to R76. -/
inductive Format where
  | formatN
  | formatT
  | formatL
  | formatA
  deriving DecidableEq, Repr

/-- The mnemonics of R80. -/
inductive Opcode where
  | signal
  | haspend
  | take
  | advance
  | arm
  | disarm
  | block
  | unblock
  | gate
  | rdstat
  | rdblk
  | clrstat
  | tick
  | cmpsvc
  deriving DecidableEq, Repr

/-- The column OP of R80; 0x0 and 0xF are illegal (R82). -/
def opcodeOf (op : BitVec 4) : Option Opcode :=
  match op.toNat with
  | 0x1 => some .signal
  | 0x2 => some .haspend
  | 0x3 => some .take
  | 0x4 => some .advance
  | 0x5 => some .arm
  | 0x6 => some .disarm
  | 0x7 => some .block
  | 0x8 => some .unblock
  | 0x9 => some .gate
  | 0xA => some .rdstat
  | 0xB => some .rdblk
  | 0xC => some .clrstat
  | 0xD => some .tick
  | 0xE => some .cmpsvc
  | _ => none

/-- The number of a mnemonic in R80. -/
def opcodeBits : Opcode → BitVec 4
  | .signal => 0x1
  | .haspend => 0x2
  | .take => 0x3
  | .advance => 0x4
  | .arm => 0x5
  | .disarm => 0x6
  | .block => 0x7
  | .unblock => 0x8
  | .gate => 0x9
  | .rdstat => 0xA
  | .rdblk => 0xB
  | .clrstat => 0xC
  | .tick => 0xD
  | .cmpsvc => 0xE

/-- The column "format" of R80. -/
def formatOf : Opcode → Format
  | .signal => .formatT
  | .haspend => .formatN
  | .take => .formatN
  | .advance => .formatT
  | .arm => .formatA
  | .disarm => .formatN
  | .block => .formatL
  | .unblock => .formatL
  | .gate => .formatN
  | .rdstat => .formatN
  | .rdblk => .formatL
  | .clrstat => .formatN
  | .tick => .formatN
  | .cmpsvc => .formatN

/-- The column "ports" of R80: a producer may issue SIGNAL only, CLK only TICK, CMP only CMPSVC, the consumer the rest and
SIGNAL (R81, R222). -/
def mayIssue : Port → Opcode → Bool
  | .cons, op => op != .tick && op != .cmpsvc
  | .prod _, op => op == .signal
  | .clk, op => op == .tick
  | .cmp, op => op == .cmpsvc

/-- The reserved bits of a format (R73 to R76, R84). -/
def reservedMask : Format → Word
  | .formatN => 0x0FFFFFFF
  | .formatT => 0x01FFFFFF
  | .formatL => 0x00FFFFFF
  | .formatA => 0x0F000000

/-! ## Fields -/

/-- OP = word[31:28] (R72). -/
def opField (w : Word) : BitVec 4 := w.extractLsb' 28 4

/-- TAG = word[27:25] (R74). -/
def tagField (w : Word) : BitVec 3 := w.extractLsb' 25 3

/-- LVL = word[27:24] (R75). -/
def lvlField (w : Word) : BitVec 4 := w.extractLsb' 24 4

/-- OFF = word[23:0] (R76). -/
def offField (w : Word) : BitVec 24 := w.extractLsb' 0 24

/-- The 3-bit code of an event (R77), used in command words, in SLOT and in RES. -/
def eventTag : Event → BitVec 3
  | .idle => 0
  | .measureRequested => 1
  | .deferredTimerFired => 2
  | .transferDone => 3
  | .transferError => 4
  | .linkLost => 5

/-- The event of a tag; 6 and 7 are reserved (R77). -/
def eventOfTag (t : BitVec 3) : Option Event :=
  match t.toNat with
  | 0 => some .idle
  | 1 => some .measureRequested
  | 2 => some .deferredTimerFired
  | 3 => some .transferDone
  | 4 => some .transferError
  | 5 => some .linkLost
  | _ => none

/-! ## The decoder -/

/-- A format-T command with its tag, or BAD_TAG (R77). -/
def withTag (w : Word) (k : Event → Instr) : Except Cause Instr :=
  match eventOfTag (tagField w) with
  | some e => .ok (k e)
  | none => .error .badTag

/-- The operands of a word whose opcode, port and reserved bits have passed (R77 to R79). The range of LVL is a check of the
meaning (Machine/Operands.lean), since it depends on the parameter M (assumption 11). -/
def decodeOperands (op : Opcode) (w : Word) : Except Cause Instr :=
  match op with
  | .signal => withTag w .signal
  | .haspend => .ok .haspend
  | .take => .ok .take
  | .advance => withTag w .advance
  | .arm => .ok (.arm (offField w))
  | .disarm => .ok .disarm
  | .block => .ok (.block (lvlField w))
  | .unblock => .ok (.unblock (lvlField w))
  | .gate => .ok .gate
  | .rdstat => .ok .rdstat
  | .rdblk => .ok (.rdblk (lvlField w))
  | .clrstat => .ok .clrstat
  | .tick => .ok .tick
  | .cmpsvc => .ok .cmpsvc

/-- The decode checks of R84 that read only the port and the word, in its order: ILLEGAL_OP, BAD_PORT, RSV_BITS, BAD_TAG. -/
def decode (p : Port) (w : Word) : Except Cause Instr :=
  match opcodeOf (opField w) with
  | none => .error .illegalOp
  | some op =>
    if mayIssue p op = false then .error .badPort
    else if w &&& reservedMask (formatOf op) ≠ 0 then .error .rsvBits
    else decodeOperands op w

/-! ## The encoder -/

/-- The opcode of a command. -/
def opcodeOfInstr : Instr → Opcode
  | .signal _ => .signal
  | .haspend => .haspend
  | .take => .take
  | .advance _ => .advance
  | .arm _ => .arm
  | .disarm => .disarm
  | .block _ => .block
  | .unblock _ => .unblock
  | .gate => .gate
  | .rdstat => .rdstat
  | .rdblk _ => .rdblk
  | .clrstat => .clrstat
  | .tick => .tick
  | .cmpsvc => .cmpsvc

/-- Bits 27..0 of a command's word, by its format (R73 to R76). -/
def operandBits : Instr → BitVec 28
  | .signal e => eventTag e ++ 0#25
  | .haspend => 0
  | .take => 0
  | .advance e => eventTag e ++ 0#25
  | .arm off => 0#4 ++ off
  | .disarm => 0
  | .block lvl => lvl ++ 0#24
  | .unblock lvl => lvl ++ 0#24
  | .gate => 0
  | .rdstat => 0
  | .rdblk lvl => lvl ++ 0#24
  | .clrstat => 0
  | .tick => 0
  | .cmpsvc => 0

/-- The word of a command (R72 to R76, R80), every reserved bit zero (R87). -/
def encode (i : Instr) : Word := opcodeBits (opcodeOfInstr i) ++ operandBits i

/-! ## Byte order -/

/-- The four bytes of a word on a byte-addressed bus, lowest address first: little-endian (R51). -/
def bytesOfWord (w : Word) : List Byte :=
  [w.extractLsb' 0 8, w.extractLsb' 8 8, w.extractLsb' 16 8, w.extractLsb' 24 8]

/-- The word that a whole-word access of a byte bus carries; any other number of bytes is a partial-word access and carries
none (R51, R52). -/
def wordOfBytes : List Byte → Option Word
  | [b0, b1, b2, b3] => some (b3 ++ b2 ++ b1 ++ b0)
  | _ => none

/-! ## The table's numbering -/

/-- A port that may issue the word's opcode: the first one its row of R80 names (the consumer for an illegal opcode). -/
def homePort (w : Word) : Port :=
  match opcodeOf (opField w) with
  | some .tick => .clk
  | some .cmpsvc => .cmp
  | _ => .cons

/-- The word of an instruction given as a row of spec/opcode_table.json numbers it: bits above `nbits` are zero. -/
def tableWord (nbits w : Nat) : Word := BitVec.ofNat 32 (w % 2 ^ nbits)

/-- What the decoder reads from a table row's word, laid out in bytes as R51 stores it, on a port that may issue it. -/
def decodeTableWord (nbits w : Nat) : Option Instr :=
  match wordOfBytes (bytesOfWord (tableWord nbits w)) with
  | none => none
  | some v =>
    match decode (homePort v) v with
    | .ok i => some i
    | .error _ => none

end Sys2Proof
end

