-- ==== Sys2Proof/Config.lean ====
section
/-!
DEFINITION. What an implementation of EVMBX fixes (the parameters of spec/00_scope.md R6) and the free values: constants
with no body, of which nothing can be proved but what holds of every value.
-/

namespace Sys2Proof

/-- The free value of the n-th draw of a bus answer, `resp_w` or `resp_r` (R89), where the environment has fixed none
(assumption 5). -/
opaque Config.freeReply : Nat → BusReply

/-- The free value of byte i of the n-th draw of received bytes `rx` (R89), where the environment has fixed none
(assumption 5). -/
opaque Config.freeByte : Nat → Nat → Byte

/-- The parameter WRITE_CMD of the reference configuration, which R6 leaves symbolic (assumption 3). -/
opaque Config.writeCmd : List Byte

/-- The parameter DECODE, uninterpreted (R6). A published value is named by a natural number (assumption 3). -/
opaque Config.decodeValue : List Byte → Nat

/-- Every conversion TICKS other than the reference one, by number: each is monotone, and nothing else is known of it
(R6, assumption 2). -/
opaque Config.ticksFamily : Nat → (Nat →o Nat)

/-- Which function TICKS(us) is (R6), named by plain data. -/
inductive TickRate where
  /-- The reference configuration's: TICKS(us) = us. -/
  | reference
  /-- Some other monotone function: `Config.ticksFamily n`. -/
  | other (n : Nat)
  deriving DecidableEq, Repr, Inhabited

/-- The parameters of R6, under the spec's names in lower case. DECODE is `Config.decodeValue`. -/
structure Params where
  clkW      : Nat
  tickRate  : TickRate
  maxDelay  : Nat
  m         : Nat
  bcW       : Nat
  nprod     : Nat
  tSettleUs : Nat
  writeCmd  : List Byte
  readLen   : Nat
  deriving DecidableEq, Repr

/-- The reference configuration of R6 (D42). -/
def Params.reference : Params where
  clkW      := 16
  tickRate  := .reference
  maxDelay  := 65535
  m         := 4
  bcW       := 8
  nprod     := 2
  tSettleUs := 1000
  writeCmd  := Config.writeCmd
  readLen   := 2

/-- The constraints R6 puts on the parameters. -/
abbrev Params.Legal (c : Params) : Prop :=
  2 ≤ c.clkW ∧ c.clkW ≤ 32 ∧ 1 ≤ c.maxDelay ∧ c.maxDelay ≤ 2 ^ c.clkW - 1 ∧ 2 ≤ c.m ∧ c.m ≤ 16 ∧
  1 ≤ c.bcW ∧ c.bcW ≤ 32 ∧ 1 ≤ c.nprod ∧ c.tSettleUs < 2 ^ 24

end Sys2Proof
end

