-- ==== Sys2Proof/Machine/State.lean ====
section
/-!
DEFINITION. The state of EVMBX: the complete record of spec/10_state.md R22, and beside it the model's own fields (the
parameters, the port of the step in progress, and what the environment has fixed: offered words, the order of steps, the
collaborators' answers). All plain data. EVMBX has no addressed memory (spec/20_memory.md R50), so State holds none.
-/

namespace Sys2Proof.Machine

/-- The output events of R38, one constructor per collaborator call. -/
inductive OutEvent where
  | railOn
  | railOff
  | block (level : Nat)
  | unblock (level : Nat)
  | busWrite (bytes : List Byte)
  | busRead (len : Nat)
  | busReset
  | publish (value : Nat)
  | sleep (mode : Nat)
  | wake
  | logTransition (before after : SeqState)
  | logInvalid (state : SeqState) (event : Event)
  | logReject (state : SeqState)
  | logTrunc (requested cap : Nat)
  deriving DecidableEq, Repr

/-- What happens next in the interleaving of R56 (assumption 6). -/
inductive Turn where
  /-- The agent of this port is the next to step, if its step is enabled. -/
  | agent (p : Port)
  /-- A platform's byte bus makes one access to this port with these bytes (R51, R52). -/
  | write (p : Port) (bytes : List Byte)
  /-- Reset, with the draws of NOW and CMP (R240), and the bus answers and received bytes that the environment fixes from
  there on (R89, R228; assumption 16). -/
  | reset (now cmp : Nat) (replies : List BusReply) (received : List (List Byte))
  deriving DecidableEq, Repr

/-- The state. Each field of the first group names its rule; NOW, CMP and the counts are natural numbers kept below the
powers of two their widths give (Sys2Proof/Safety.lean, assumption 15). -/
structure State where
  /-- SLOT, the pending event or Idle (R23). -/
  slot     : Event
  /-- FSM, the sequencer state register (R25). -/
  fsm      : SeqState
  /-- NOW, the free-running counter, CLK_W bits (R26). -/
  now      : Nat
  /-- CMP, the compare register, CLK_W bits (R27). -/
  cmp      : Nat
  /-- ARMED (R28). -/
  armed    : Bool
  /-- CMP_PEND, the comparator's interrupt request (R29). -/
  cmpPend  : Bool
  /-- RAIL_EN, the enable of the sensor power rail (R30). -/
  railEn   : Bool
  /-- BLK[1], ..., BLK[M-1] in that order, BC_W bits each (R31). -/
  blk      : List Nat
  /-- SLEEPING (R32). -/
  sleeping : Bool
  /-- MODE, the power mode last requested (R33). -/
  mode     : BitVec 4
  /-- W_TRUNC (R34). -/
  wTrunc   : Bool
  /-- W_INVALID (R34). -/
  wInvalid : Bool
  /-- W_REJECT (R34). -/
  wReject  : Bool
  /-- DROP_CNT (R35). -/
  dropCnt  : BitVec 16
  /-- FAULT (R36). -/
  fault    : Bool
  /-- FCAUSE (R36, R211). -/
  fcause   : BitVec 4
  /-- RES, the result word of the consumer (R37). -/
  res      : Word
  /-- OUT, the output trace (R38). -/
  out      : List OutEvent
  /-- The model's own: the parameters (R6, R39; assumption 1). No step writes them. -/
  cfg      : Params
  /-- The model's own: the port whose agent is stepping, R101's `p` (assumption 7). -/
  port     : Port
  /-- The model's own: the words the agents offer, each port's in order (R70; assumption 6). -/
  offered  : List (Port × Word)
  /-- The model's own: the order of the steps to come (R56; assumption 6). -/
  turns    : List Turn
  /-- The model's own: bus answers the environment has already fixed, in the order of their draws (R89; assumption 5). -/
  replies  : List BusReply
  /-- The model's own: received bytes the environment has already fixed, in the order of their draws (R89; assumption 5). -/
  received : List (List Byte)
  /-- The model's own: how many draws and resets there have been; it numbers the free values (assumption 5). -/
  draws    : Nat
  deriving DecidableEq, Repr

/-- Why the machine stops with a fault. -/
inductive Fault where
  /-- Raised by `step` (through `takeTurn`) from a state with FAULT = 1 when the next turn is no reset: no agent has a step
  and the block is halted, with this FCAUSE (R215). Safe: the machine stops where the spec says that nothing moves. -/
  | halted (fcause : BitVec 4)
  deriving DecidableEq, Repr

/-- Why the machine refuses a step. -/
inductive Refusal where
  /-- Raised by an arm of `exec` that has no meaning yet; none is left. Safe: nothing is proved of it. -/
  | notModelled (mnemonic : String)
  /-- Raised by `step` (through `takeTurn`) for a partial-word access of a platform's byte bus, which "the model refuses"
  (R52), and for one of more than four bytes (assumption 9). Safe: the spec gives either access no step and no effect. -/
  | partialWord (p : Port)
  /-- Raised by `step` (through `takeTurn`) for a turn of a port PROD[k] with k >= NPROD, which does not exist (R70;
  assumption 10). Safe: no such agent has a step. -/
  | noSuchPort (p : Port)
  deriving DecidableEq, Repr

/-- The state right after reset (R22, R240) under the parameters `c`, for the draws `now` and `cmp`, with nothing offered,
ordered or answered yet. -/
def State.initial (c : Params) (now cmp : Nat) : State where
  slot     := .idle
  fsm      := .sensorOff
  now      := now % 2 ^ c.clkW
  cmp      := cmp % 2 ^ c.clkW
  armed    := false
  cmpPend  := false
  railEn   := false
  blk      := List.replicate (c.m - 1) 0
  sleeping := false
  mode     := 0
  wTrunc   := false
  wInvalid := false
  wReject  := false
  dropCnt  := 0
  fault    := false
  fcause   := 0
  res      := 0
  out      := []
  cfg      := c
  port     := .cons
  offered  := []
  turns    := []
  replies  := []
  received := []
  draws    := 0

/-- The machine right after reset, in the reference configuration of R6 (assumption 1) and with the draws NOW = CMP = 0
(DESIGN CHOICE, assumption 4). -/
def State.reset : State := State.initial Params.reference 0 0

end Sys2Proof.Machine
end

