-- ==== Sys2Proof/Machine/Operands.lean ====
section
/-!
DEFINITION. The operand forms of the commands (spec/30_encoding.md R77 to R79), the conversion of an offset to ticks
(spec/42_deferred_trigger.md R160) and the codes the result words use (R25, R77).
-/

namespace Sys2Proof.Machine

/-- The 2-bit code of a sequencer state (R25). -/
def seqCode : SeqState → BitVec 2
  | .sensorOff => 0
  | .awaitingPowerUp => 1
  | .awaitingWriteCompletion => 2
  | .awaitingReadCompletion => 3

/-- The code of a fault cause (R211). -/
def causeCode : Cause → BitVec 4
  | .illegalOp => 1
  | .badPort => 2
  | .rsvBits => 3
  | .badTag => 4
  | .badLevel => 5
  | .blkOverflow => 6
  | .blkUnderflow => 7

/-- The power mode a level field names, zero-extended, or BAD_LEVEL for 0 and for M and above (R78, R84). -/
def levelOperand (c : Params) (lvl : BitVec 4) : Except Cause Nat :=
  if lvl.toNat = 0 ∨ c.m ≤ lvl.toNat then .error .badLevel else .ok lvl.toNat

/-- The microseconds an offset field names, zero-extended (R79). -/
def offsetOperand (off : BitVec 24) : Nat := off.toNat

/-- The parameter TICKS(us) (R6). -/
def ticksOf (c : Params) (us : Nat) : Nat :=
  match c.tickRate with
  | .reference => us
  | .other n => Config.ticksFamily n us

/-- Whether a port is a producer's (R70). -/
def isProducer : Port → Bool
  | .cons => false
  | .prod _ => true
  | .clk => false
  | .cmp => false

/-- Whether a port exists: PROD[k] only for k below NPROD (R70). -/
def portExists (c : Params) : Port → Bool
  | .cons => true
  | .prod k => decide (k < c.nprod)
  | .clk => true
  | .cmp => true

end Sys2Proof.Machine
end

