-- ==== Sys2Proof/Machine/Flags.lean ====
section
/-!
DEFINITION. The flag PEND (spec/10_state.md R24) and the result words (spec/30_encoding.md R86, spec/44_diagnostics.md R200).
-/

namespace Sys2Proof.Machine

/-- PEND = (SLOT != Idle), a function of the state and no register (R24). -/
def pend (s : State) : Bool := s.slot != .idle

/-- `zext_32` of a flag. -/
def flagWord (b : Bool) : Word := (BitVec.ofBool b).setWidth 32

/-- `zext_32` of an event's tag (R86). -/
def tagWord (e : Event) : Word := (eventTag e).setWidth 32

/-- `zext_32` of FSM (R86). -/
def seqWord (q : SeqState) : Word := (seqCode q).setWidth 32

/-- RES of a GATE that takes an event (R86, R183): the tag in bits 2..0, FSM in bits 5..4, bit 8 set. -/
def gateTakeWord (e : Event) (q : SeqState) : Word := (1#32 <<< 8) ||| (seqWord q <<< 4) ||| tagWord e

/-- RES of a GATE that sleeps (R86, R183): the mode entered in bits 15..12. -/
def gateSleepWord (m : Nat) : Word := BitVec.ofNat 32 m <<< 12

/-- The status word RDSTAT reads (R200), from bit 31 down. -/
def statusWord (s : State) : Word :=
  s.dropCnt ++ 0#5 ++ BitVec.ofBool s.wReject ++ BitVec.ofBool s.wInvalid ++ BitVec.ofBool s.wTrunc ++
    BitVec.ofBool s.railEn ++ BitVec.ofBool s.cmpPend ++ BitVec.ofBool s.armed ++ eventTag s.slot ++ seqCode s.fsm

end Sys2Proof.Machine
end

