-- ==== Sys2Proof/Machine/Ops.lean ====
section
/-!
DEFINITION. The named operations the meanings share: emit and the draws (spec/00_scope.md R9), fault entry
(spec/60_exceptions.md R214), the mailbox primitives (R100, R103), the arm primitive (R160), the sleep-block counters
(R181, R182), sleep and wake (R180, R184, R185), the teardown (R125), and reset (R240).
-/

namespace Sys2Proof.Machine

/-! ## Output and faults -/

/-- `emit(E)` appends E to the output trace (R9, R38). -/
def emit (e : OutEvent) (s : State) : State := { s with out := s.out ++ [e] }

/-- Fault entry (R214): from the state before the step, only FAULT and FCAUSE are written. -/
def raise (c : Cause) (s : State) : State := { s with fault := true, fcause := causeCode c }

/-- The end of a step that may raise a fault: its next state, or fault entry from the state `s` before it, which discards
every write of the step, its draws among them (R214). -/
def finish (s : State) : Except Cause State → Host.Outcome State Fault Refusal
  | .ok t => .next t
  | .error c => .next (raise c s)

/-! ## Mailbox -/

/-- `sat_16(DROP_CNT + 1)` (R9, R100). -/
def satSucc (d : BitVec 16) : BitVec 16 := if d = 0xFFFF then d else d + 1

/-- `Post(e)`, insert if empty (R100): Idle has no effect, a full slot drops and counts. -/
def post (e : Event) (s : State) : State :=
  if e = .idle then s
  else if s.slot = .idle then { s with slot := e }
  else { s with dropCnt := satSucc s.dropCnt }

/-- The clear of `TakeCore()` (R103); the tag it returns is the slot before it. -/
def clearSlot (s : State) : State := { s with slot := .idle }

/-! ## Sleep and wake -/

/-- `EnterSleep(m)` (R184). -/
def enterSleep (m : Nat) (s : State) : State :=
  emit (.sleep m) { s with mode := BitVec.ofNat 4 m, sleeping := true }

/-- `Wake()` (R185). -/
def wake (s : State) : State := emit .wake { s with sleeping := false, mode := 0 }

/-- What every interrupt does after its post: a sleeping consumer wakes (R101, R164, R185). -/
def wakeIfSleeping (s : State) : State := if s.sleeping then wake s else s

/-! ## Sleep-block counters -/

/-- BLK[L] (R31). -/
def blkAt (s : State) (l : Nat) : Nat := s.blk.getD (l - 1) 0

/-- BLK[L] <- v (R31). -/
def setBlk (l v : Nat) (s : State) : State := { s with blk := s.blk.set (l - 1) v }

/-- `BlockCore(L)` (R181). -/
def blockCore (l : Nat) (s : State) : Except Cause State :=
  if blkAt s l = 2 ^ s.cfg.bcW - 1 then .error .blkOverflow
  else .ok (emit (.block l) (setBlk l (blkAt s l + 1) s))

/-- `UnblockCore(L)` (R182). -/
def unblockCore (l : Nat) (s : State) : Except Cause State :=
  if blkAt s l = 0 then .error .blkUnderflow
  else .ok (emit (.unblock l) (setBlk l (blkAt s l - 1) s))

/-- The loop of R180 from level `l`, with `n` levels left to look at. -/
def allowedFrom (s : State) : Nat → Nat → Nat
  | 0, l => l - 1
  | n + 1, l => if 0 < blkAt s l then l - 1 else allowedFrom s n (l + 1)

/-- `AllowedMode()`, the deepest sleep mode currently not blocked (R180). -/
def allowedMode (s : State) : Nat := allowedFrom s (s.cfg.m - 1) 1

/-! ## Deferred trigger -/

/-- The first half of `ArmCore(us)` (R160): a delay of `t` ticks above MAX_DELAY sets W_TRUNC and is logged. -/
def warnTrunc (t : Nat) (s : State) : State :=
  if s.cfg.maxDelay < t then emit (.logTrunc t s.cfg.maxDelay) { s with wTrunc := true } else s

/-- The effective delay of `ArmCore(us)` (R160): capped at MAX_DELAY, and at least one tick. -/
def effectiveDelay (c : Params) (us : Nat) : Nat := max (min (ticksOf c us) c.maxDelay) 1

/-- `ArmCore(us)` (R160): the compare value, ARMED and CMP_PEND are written as one unit. -/
def armCore (us : Nat) (s : State) : State :=
  { warnTrunc (ticksOf s.cfg us) s with
    cmp := (s.now + effectiveDelay s.cfg us) % 2 ^ s.cfg.clkW
    armed := true
    cmpPend := false }

/-! ## Collaborators' answers (R89) -/

/-- The next bus answer: the one the environment has fixed, else a free value (assumption 5). -/
def nextReply (s : State) : BusReply := s.replies.headD (Config.freeReply s.draws)

/-- The state after a draw of a bus answer. -/
def afterReply (s : State) : State := { s with replies := s.replies.tail, draws := s.draws + 1 }

/-- The received bytes `rx`, READ_LEN of them: byte i is the one the environment has fixed, else a free value
(assumption 5). -/
def nextReceived (s : State) : List Byte :=
  (List.range s.cfg.readLen).map fun i => (s.received.headD []).getD i (Config.freeByte s.draws i)

/-- The state after a draw of received bytes. -/
def afterReceived (s : State) : State := { s with received := s.received.tail, draws := s.draws + 1 }

/-- The parameter DECODE (R6). -/
def decodeReceived (bytes : List Byte) : Nat := Config.decodeValue bytes

/-! ## Sequencer -/

/-- The rail on, as rows of R133 write it. -/
def railOn (s : State) : State := emit .railOn { s with railEn := true }

/-- The rail off, as rows of R133 write it. -/
def railOff (s : State) : State := emit .railOff { s with railEn := false }

/-- The deepest sleep mode, M-1, which the sequencer blocks (R123, R125). -/
def deepest (c : Params) : Nat := c.m - 1

/-- `Teardown(q)` (R125): disable the rail, release the sleep block unless `q` is SensorOff, reset the bus driver. -/
def teardown (q : SeqState) (s : State) : Except Cause State :=
  if q = .sensorOff then .ok (emit .busReset (railOff s))
  else
    match unblockCore (deepest s.cfg) (railOff s) with
    | .ok t => .ok (emit .busReset t)
    | .error c => .error c

/-- The default policy (R131): log the unmatched pair as a warning. -/
def logInvalid (q : SeqState) (e : Event) (s : State) : State :=
  emit (.logInvalid q e) { s with wInvalid := true }

/-- A rejected bus command (R124, R126): log it as a warning. -/
def logReject (q : SeqState) (s : State) : State := emit (.logReject q) { s with wReject := true }

/-! ## Reset -/

/-- Reset (R240), with the draws of NOW and CMP: every element of R22 at its reset value. The parameters are fixed for the
life of the block (R39), and what the environment has offered and ordered is not the block's. The answers to come are fixed
anew, and the free values go on from a new number, so that no answer a fault has discarded (R214) binds a later draw (R228;
assumption 16). -/
def applyReset (now cmp : Nat) (replies : List BusReply) (received : List (List Byte)) (s : State) : State :=
  { State.initial s.cfg now cmp with
    port := s.port
    offered := s.offered
    turns := s.turns
    replies := replies
    received := received
    draws := s.draws + 1 }

end Sys2Proof.Machine
end

