-- ==== Sys2Proof/Machine/Diagnostics.lean ====
section
/-!
DEFINITION. The diagnostic commands RDSTAT, RDBLK and CLRSTAT (spec/44_diagnostics.md R200 to R202).
-/

namespace Sys2Proof.Machine

/-- RDSTAT (R200). -/
def execRdstat (s : State) : Host.Outcome State Fault Refusal := .next { s with res := statusWord s }

/-- RDBLK (R201): RES <- zext_32(BLK[LVL]), or BAD_LEVEL (R78). -/
def execRdblk (lvl : BitVec 4) (s : State) : Host.Outcome State Fault Refusal :=
  match levelOperand s.cfg lvl with
  | .ok l => .next { s with res := BitVec.ofNat 32 (blkAt s l) }
  | .error c => .next (raise c s)

/-- CLRSTAT (R202). -/
def execClrstat (s : State) : Host.Outcome State Fault Refusal :=
  .next { s with wTrunc := false, wInvalid := false, wReject := false, dropCnt := 0 }

end Sys2Proof.Machine
end

