-- ==== Sys2Proof/Machine/Mailbox.lean ====
section
/-!
DEFINITION. The mailbox commands SIGNAL, HASPEND and TAKE (spec/40_mailbox.md R101 to R103).
-/

namespace Sys2Proof.Machine

/-- SIGNAL (R101): post the event; on a producer port it is an interrupt and wakes a sleeping consumer. -/
def execSignal (tag : Event) (s : State) : Host.Outcome State Fault Refusal :=
  .next (if isProducer s.port then wakeIfSleeping (post tag s) else post tag s)

/-- HASPEND (R102): RES <- zext_32(PEND). -/
def execHaspend (s : State) : Host.Outcome State Fault Refusal :=
  .next { s with res := flagWord (pend s) }

/-- TAKE (R103): RES <- the tag the slot held, and the slot is emptied. -/
def execTake (s : State) : Host.Outcome State Fault Refusal :=
  .next { clearSlot s with res := tagWord s.slot }

end Sys2Proof.Machine
end

