-- ==== Sys2Proof/Machine/Sequencer.lean ====
section
/-!
DEFINITION. The transition table and the next-state decode (spec/41_scheduler.md R121 to R134), and the command ADVANCE
(R120).
-/

namespace Sys2Proof.Machine

/-- Row 2 of R133 (R123): rail on, block the deepest mode, arm the settle deadline. -/
def startAcquisition (s : State) : Except Cause (SeqState × State) :=
  match blockCore (deepest s.cfg) (railOn s) with
  | .ok t => .ok (.awaitingPowerUp, armCore s.cfg.tSettleUs t)
  | .error c => .error c

/-- Row 9 of R133 (R124): begin the write; if rejected, remain and log. -/
def beginWrite (s : State) : Except Cause (SeqState × State) :=
  let t := emit (.busWrite s.cfg.writeCmd) s
  match nextReply t with
  | .accepted => .ok (.awaitingWriteCompletion, afterReply t)
  | .rejected => .ok (.awaitingPowerUp, logReject .awaitingPowerUp (afterReply t))

/-- A teardown out of `q` into SensorOff (rows 6, 12, 17, 18, 23, 24 of R133; R127, R129, R130). -/
def tearDownToOff (q : SeqState) (s : State) : Except Cause (SeqState × State) :=
  match teardown q s with
  | .ok t => .ok (.sensorOff, t)
  | .error c => .error c

/-- Row 16 of R133 (R126): begin the read; if rejected, log and tear down. -/
def beginRead (s : State) : Except Cause (SeqState × State) :=
  let t := emit (.busRead s.cfg.readLen) s
  match nextReply t with
  | .accepted => .ok (.awaitingReadCompletion, afterReply t)
  | .rejected =>
    tearDownToOff .awaitingWriteCompletion (logReject .awaitingWriteCompletion (afterReply t))

/-- Row 22 of R133 (R128): tear down, then publish the decoded measurement. -/
def publishMeasurement (s : State) : Except Cause (SeqState × State) :=
  match teardown .awaitingReadCompletion s with
  | .ok t => .ok (.sensorOff, emit (.publish (decodeReceived (nextReceived t))) (afterReceived t))
  | .error c => .error c

/-- An unmatched pair (R131): log it and stay. -/
def unmatched (q : SeqState) (e : Event) (s : State) : Except Cause (SeqState × State) := .ok (q, logInvalid q e s)

/-- `Table(s, e)`, the 24 entries of R133 in its order: the next state and the state after the entry's effects. -/
def tableEntry (q : SeqState) (e : Event) (s : State) : Except Cause (SeqState × State) :=
  match q, e with
  | .sensorOff, .idle => .ok (.sensorOff, s)
  | .sensorOff, .measureRequested => startAcquisition s
  | .sensorOff, .deferredTimerFired => unmatched .sensorOff .deferredTimerFired s
  | .sensorOff, .transferDone => unmatched .sensorOff .transferDone s
  | .sensorOff, .transferError => unmatched .sensorOff .transferError s
  | .sensorOff, .linkLost => tearDownToOff .sensorOff s
  | .awaitingPowerUp, .idle => .ok (.awaitingPowerUp, s)
  | .awaitingPowerUp, .measureRequested => unmatched .awaitingPowerUp .measureRequested s
  | .awaitingPowerUp, .deferredTimerFired => beginWrite s
  | .awaitingPowerUp, .transferDone => unmatched .awaitingPowerUp .transferDone s
  | .awaitingPowerUp, .transferError => unmatched .awaitingPowerUp .transferError s
  | .awaitingPowerUp, .linkLost => tearDownToOff .awaitingPowerUp s
  | .awaitingWriteCompletion, .idle => .ok (.awaitingWriteCompletion, s)
  | .awaitingWriteCompletion, .measureRequested => unmatched .awaitingWriteCompletion .measureRequested s
  | .awaitingWriteCompletion, .deferredTimerFired => unmatched .awaitingWriteCompletion .deferredTimerFired s
  | .awaitingWriteCompletion, .transferDone => beginRead s
  | .awaitingWriteCompletion, .transferError => tearDownToOff .awaitingWriteCompletion s
  | .awaitingWriteCompletion, .linkLost => tearDownToOff .awaitingWriteCompletion s
  | .awaitingReadCompletion, .idle => .ok (.awaitingReadCompletion, s)
  | .awaitingReadCompletion, .measureRequested => unmatched .awaitingReadCompletion .measureRequested s
  | .awaitingReadCompletion, .deferredTimerFired => unmatched .awaitingReadCompletion .deferredTimerFired s
  | .awaitingReadCompletion, .transferDone => publishMeasurement s
  | .awaitingReadCompletion, .transferError => tearDownToOff .awaitingReadCompletion s
  | .awaitingReadCompletion, .linkLost => tearDownToOff .awaitingReadCompletion s

/-- FSM <- s2, and `LogTransition` exactly when it differs from the state before the step (R121, R132). -/
def enterState (before after : SeqState) (s : State) : State :=
  if after = before then { s with fsm := after }
  else emit (.logTransition before after) { s with fsm := after }

/-- `Advance(e)` (R121). -/
def advanceCore (e : Event) (s : State) : Except Cause State :=
  match tableEntry s.fsm e s with
  | .ok (q, t) => .ok (enterState s.fsm q t)
  | .error c => .error c

/-- The result of ADVANCE (R86, R120): RES <- zext_32(FSM), the state after the step. -/
def advanceResult (r : Except Cause State) : Except Cause State :=
  match r with
  | .ok t => .ok { t with res := seqWord t.fsm }
  | .error c => .error c

/-- ADVANCE (R120). -/
def execAdvance (tag : Event) (s : State) : Host.Outcome State Fault Refusal :=
  finish s (advanceResult (advanceCore tag s))

end Sys2Proof.Machine
end

