-- ==== Sys2Proof/Machine/PowerGate.lean ====
section
/-!
DEFINITION. The power-gate commands BLOCK, UNBLOCK and GATE (spec/43_power_gate.md R181 to R183).
-/

namespace Sys2Proof.Machine

/-- A counter operation on a level operand, or BAD_LEVEL (R78, R84). -/
def onLevel (lvl : BitVec 4) (s : State) (k : Nat → Except Cause State) : Except Cause State :=
  match levelOperand s.cfg lvl with
  | .ok l => k l
  | .error c => .error c

/-- BLOCK (R181). -/
def execBlock (lvl : BitVec 4) (s : State) : Host.Outcome State Fault Refusal :=
  finish s (onLevel lvl s fun l => blockCore l s)

/-- UNBLOCK (R182). -/
def execUnblock (lvl : BitVec 4) (s : State) : Host.Outcome State Fault Refusal :=
  finish s (onLevel lvl s fun l => unblockCore l s)

/-- GATE with an empty slot (R183): sleep in the deepest mode allowed, or return 0 when every sleep mode is blocked. -/
def gateEmpty (s : State) : State :=
  if allowedMode s = 0 then { s with res := 0 }
  else { enterSleep (allowedMode s) s with res := gateSleepWord (allowedMode s) }

/-- GATE with a pending event (R183): take it and advance, in one step. -/
def gateTake (s : State) : Except Cause State :=
  match advanceCore s.slot (clearSlot s) with
  | .ok t => .ok { t with res := gateTakeWord s.slot t.fsm }
  | .error c => .error c

/-- GATE (R183). -/
def execGate (s : State) : Host.Outcome State Fault Refusal :=
  if pend s then finish s (gateTake s) else .next (gateEmpty s)

end Sys2Proof.Machine
end

