-- ==== Sys2Proof/Machine/Trigger.lean ====
section
/-!
DEFINITION. The deferred-trigger commands ARM, DISARM, TICK and CMPSVC (spec/42_deferred_trigger.md R161 to R164).
-/

namespace Sys2Proof.Machine

/-- ARM (R161). -/
def execArm (off : BitVec 24) (s : State) : Host.Outcome State Fault Refusal :=
  .next (armCore (offsetOperand off) s)

/-- DISARM (R162): CMP keeps its value. -/
def execDisarm (s : State) : Host.Outcome State Fault Refusal :=
  .next { s with armed := false, cmpPend := false }

/-- One count of NOW and the compare match on the counted value (R163). -/
def tickCore (s : State) : State :=
  let n := (s.now + 1) % 2 ^ s.cfg.clkW
  if s.armed = true ∧ n = s.cmp then { s with now := n, cmpPend := true, armed := false }
  else { s with now := n }

/-- TICK (R163). -/
def execTick (s : State) : Host.Outcome State Fault Refusal := .next (tickCore s)

/-- CMPSVC (R164): with CMP_PEND = 0 the agent has no step and the state stays (assumption 11); else the request is cleared,
DeferredTimerFired is posted and a sleeping consumer wakes. -/
def execCmpsvc (s : State) : Host.Outcome State Fault Refusal :=
  if s.cmpPend then .next (wakeIfSleeping (post .deferredTimerFired { s with cmpPend := false })) else .next s

end Sys2Proof.Machine
end

