-- ==== Sys2Proof/Machine/Dispatch.lean ====
section
/-!
DEFINITION. One arm per command: its meaning (spec/30_encoding.md R80, "execute the rule of R80").
-/

namespace Sys2Proof.Machine

def exec (i : Instr) (s : State) : Host.Outcome State Fault Refusal :=
  match i with
  | .signal tag => Sys2Proof.Machine.execSignal tag s
  | .haspend => Sys2Proof.Machine.execHaspend s
  | .take => Sys2Proof.Machine.execTake s
  | .advance tag => Sys2Proof.Machine.execAdvance tag s
  | .arm off => Sys2Proof.Machine.execArm off s
  | .disarm => Sys2Proof.Machine.execDisarm s
  | .block lvl => Sys2Proof.Machine.execBlock lvl s
  | .unblock lvl => Sys2Proof.Machine.execUnblock lvl s
  | .gate => Sys2Proof.Machine.execGate s
  | .rdstat => Sys2Proof.Machine.execRdstat s
  | .rdblk lvl => Sys2Proof.Machine.execRdblk lvl s
  | .clrstat => Sys2Proof.Machine.execClrstat s
  | .tick => Sys2Proof.Machine.execTick s
  | .cmpsvc => Sys2Proof.Machine.execCmpsvc s

end Sys2Proof.Machine
end

