-- ==== Sys2Proof/Machine/Ports.lean ====
section
/-!
DEFINITION. How the agents' words become steps: the words offered on the ports (spec/30_encoding.md R70), the decision of
R84 for one port and word, one agent's step, one turn of the interleaving (spec/20_memory.md R56), and how a word is placed
so that the next step runs it.
-/

namespace Sys2Proof.Machine

/-- The word the agent of port `p` is offering: the first one of that port. -/
def wordOffered (p : Port) : List (Port × Word) → Option Word
  | [] => none
  | (q, w) :: rest => if q = p then some w else wordOffered p rest

/-- The offered words after the agent of port `p` has issued its word. -/
def wordIssued (p : Port) : List (Port × Word) → List (Port × Word)
  | [] => []
  | (q, w) :: rest => if q = p then rest else (q, w) :: wordIssued p rest

/-- What R84 decides for a step of the agent on one port with one word. -/
inductive Verdict where
  /-- No step: the agent waits, and its word with it (R9, R186, R164). -/
  | wait
  /-- `raise Fault(cause)`. -/
  | fault (c : Cause)
  /-- Execute the rule of this command. -/
  | run (i : Instr)
  deriving DecidableEq, Repr

/-- R84 for a block that has not faulted: the sleeping consumer waits before any decode check; the decode checks; CMPSVC
with CMP_PEND = 0 waits. BAD_LEVEL, the last check before that one and of other formats, is raised by the meanings of
format L (assumption 11). -/
def verdict (s : State) (p : Port) (w : Word) : Verdict :=
  if p = .cons ∧ s.sleeping = true then .wait
  else
    match decode p w with
    | .error c => .fault c
    | .ok i => if i = .cmpsvc ∧ s.cmpPend = false then .wait else .run i

/-- The state in which the agent of port `p` executes the word it was offering. -/
def issue (p : Port) (s : State) : State := { s with port := p, offered := wordIssued p s.offered }

/-- One turn of the agent of port `p`: no step if it offers nothing or must wait, else its whole step. -/
def agentStep (p : Port) (s : State) : Host.Outcome State Fault Refusal :=
  if portExists s.cfg p = false then .refused (.noSuchPort p)
  else
    match wordOffered p s.offered with
    | none => .next s
    | some w =>
      match verdict s p w with
      | .wait => .next s
      | .fault c => .next (raise c (issue p s))
      | .run i => exec i (issue p s)

/-- One access of a platform's byte bus to port `p` (R51, R52): a whole word is offered on the port after the words
already there; a partial-word access is refused, and so is one of more than four bytes (assumption 9). -/
def busWriteStep (p : Port) (bytes : List Byte) (s : State) : Host.Outcome State Fault Refusal :=
  if portExists s.cfg p = false then .refused (.noSuchPort p)
  else
    match wordOfBytes bytes with
    | some w => .next { s with offered := s.offered ++ [(p, w)] }
    | none => .refused (.partialWord p)

/-- One turn. Reset is enabled in every state (R240); after a fault nothing else is (R215); with no turn to come nothing
moves. -/
def takeTurn (s : State) : Host.Outcome State Fault Refusal :=
  match s.turns with
  | [] => if s.fault then .fault (.halted s.fcause) else .next s
  | .reset now cmp replies received :: rest => .next (applyReset now cmp replies received { s with turns := rest })
  | .agent p :: rest => if s.fault then .fault (.halted s.fcause) else agentStep p { s with turns := rest }
  | .write p bytes :: rest => if s.fault then .fault (.halted s.fcause) else busWriteStep p bytes { s with turns := rest }

/-- `s` with the word `w` offered first on a port that may issue it and that agent next to move, and with the agent's step
enabled as R84 asks: no fault, a consumer awake, and for CMPSVC the request pending (assumption 14). -/
def placeWord (s : State) (w : Word) : State :=
  { s with
    fault := false
    fcause := 0
    sleeping := if homePort w = .cons then false else s.sleeping
    mode := if homePort w = .cons then 0 else s.mode
    cmpPend := if homePort w = .cmp then true else s.cmpPend
    offered := (homePort w, w) :: s.offered
    turns := .agent (homePort w) :: s.turns }

end Sys2Proof.Machine
end

