-- ==== Sys2Proof/Machine/Step.lean ====
section
/-!
DEFINITION. The step of EVMBX, one turn of the interleaving (spec/20_memory.md R53, R56), and the placing of a word so that
the next step runs it.
-/

namespace Sys2Proof.Machine

/-- One step: the next turn (R56), indivisible (R53). -/
def step (s : State) : Host.Outcome State Fault Refusal := takeTurn s

/-- `s` with a table row's word placed where the next step runs it (assumption 14). -/
def State.withFetchWord (s : State) (nbits w : Nat) : State := placeWord s (tableWord nbits w)

end Sys2Proof.Machine
end

