-- ==== Sys2Proof/WellFormed.lean ====
section
/-!
DEFINITION. When a command's operands are legal under the parameters: the range of LVL (spec/30_encoding.md R78). A tag is
legal by its type (R77) and every offset is legal (R79).
-/

namespace Sys2Proof

/-- R78: the legal range of LVL is 1 <= LVL <= M-1. -/
abbrev LegalLevel (c : Params) (lvl : BitVec 4) : Prop := 1 ≤ lvl.toNat ∧ lvl.toNat ≤ c.m - 1

/-- The operands of `i` are legal under the parameters `c`. -/
def Instr.wellFormed (c : Params) : Instr → Bool
  | .signal _ => true
  | .haspend => true
  | .take => true
  | .advance _ => true
  | .arm _ => true
  | .disarm => true
  | .block lvl => decide (LegalLevel c lvl)
  | .unblock lvl => decide (LegalLevel c lvl)
  | .gate => true
  | .rdstat => true
  | .rdblk lvl => decide (LegalLevel c lvl)
  | .clrstat => true
  | .tick => true
  | .cmpsvc => true

end Sys2Proof
end

