-- ==== Sys2Proof/Safety.lean ====
section
/-!
DEFINITION. What counts as a safe state, the invariants the statements speak of, what a command's rule says of its words, and
the runs of several commands the statements name.
-/

namespace Sys2Proof.Machine

/-- A faulted state is never a good end of a run (R215). -/
def State.safe (s : State) : Bool := !s.fault

/-- What every state a run reaches has: legal parameters (R6); one BC_W-bit count per sleep mode (R31); NOW and CMP within
CLK_W bits (R26, R27); never armed with a request pending (R160, R163); MODE 0 while awake and a sleep mode while asleep
(R33); FCAUSE 0 exactly without a fault and never a reserved code (R36, R211). -/
abbrev State.Inv (s : State) : Prop :=
  s.cfg.Legal ∧ s.blk.length = s.cfg.m - 1 ∧ (∀ n ∈ s.blk, n < 2 ^ s.cfg.bcW) ∧
  s.now < 2 ^ s.cfg.clkW ∧ s.cmp < 2 ^ s.cfg.clkW ∧
  ¬(s.armed = true ∧ s.cmpPend = true) ∧
  (s.sleeping = false → s.mode = 0) ∧
  (s.sleeping = true → 1 ≤ s.mode.toNat ∧ s.mode.toNat ≤ s.cfg.m - 1) ∧
  (s.fault = false ↔ s.fcause = 0) ∧ s.fcause.toNat ≤ 7

/-- The pairing of R137: out of SensorOff the rail is on and exactly one block of the deepest mode is held; in SensorOff
the rail is off and none is. -/
abbrev State.Paired (s : State) : Prop :=
  (s.railEn = true ↔ s.fsm ≠ .sensorOff) ∧ blkAt s (s.cfg.m - 1) = if s.fsm = .sensorOff then 0 else 1

/-! ## What a command's rule says of its words (spec/30_encoding.md R72 to R84), for every port and every word of its opcode -/

/-- Format N (R73): BAD_PORT off the command's ports, RSV_BITS with a reserved bit set, else the command. -/
def EncodedN (op : Nat) (ports : Port → Bool) (i : Instr) : Prop :=
  ∀ (p : Port) (w : Word), w.toNat / 2 ^ 28 = op →
    decode p w =
      if ports p = false then .error .badPort
      else if w.toNat % 2 ^ 28 ≠ 0 then .error .rsvBits
      else .ok i

/-- Format T (R74, R77): as format N, then BAD_TAG for the tags 6 and 7, else the command with the event of its tag. -/
def EncodedT (op : Nat) (ports : Port → Bool) (k : Event → Instr) : Prop :=
  ∀ (p : Port) (w : Word), w.toNat / 2 ^ 28 = op →
    decode p w =
      if ports p = false then .error .badPort
      else if w.toNat % 2 ^ 25 ≠ 0 then .error .rsvBits
      else
        match w.toNat / 2 ^ 25 % 8 with
        | 0 => .ok (k .idle)
        | 1 => .ok (k .measureRequested)
        | 2 => .ok (k .deferredTimerFired)
        | 3 => .ok (k .transferDone)
        | 4 => .ok (k .transferError)
        | 5 => .ok (k .linkLost)
        | _ => .error .badTag

/-- Format L (R75): as format N, with the level in bits 27..24 (its range is the command's own check). -/
def EncodedL (op : Nat) (ports : Port → Bool) (k : BitVec 4 → Instr) : Prop :=
  ∀ (p : Port) (w : Word), w.toNat / 2 ^ 28 = op →
    decode p w =
      if ports p = false then .error .badPort
      else if w.toNat % 2 ^ 24 ≠ 0 then .error .rsvBits
      else .ok (k (BitVec.ofNat 4 (w.toNat / 2 ^ 24 % 16)))

/-- Format A (R76): as format N, with the offset in bits 23..0. -/
def EncodedA (op : Nat) (ports : Port → Bool) (k : BitVec 24 → Instr) : Prop :=
  ∀ (p : Port) (w : Word), w.toNat / 2 ^ 28 = op →
    decode p w =
      if ports p = false then .error .badPort
      else if w.toNat / 2 ^ 24 % 16 ≠ 0 then .error .rsvBits
      else .ok (k (BitVec.ofNat 24 (w.toNat % 2 ^ 24)))

/-- CONS alone. -/
def consumerOnly (p : Port) : Bool := decide (p = .cons)

/-! ## Runs and lists the statements name -/

/-- The commands run one after another, stopping where one does not answer a next state. -/
def execAll : List Instr → State → Host.Outcome State Fault Refusal
  | [], s => .next s
  | i :: rest, s =>
    match exec i s with
    | .next t => execAll rest t
    | .fault r => .fault r
    | .refused r => .refused r

/-- The commands run one after another, each issued on its port. -/
def runOn : List (Port × Instr) → State → Host.Outcome State Fault Refusal
  | [], s => .next s
  | (p, i) :: rest, s =>
    match exec i { s with port := p } with
    | .next t => runOn rest t
    | .fault r => .fault r
    | .refused r => .refused r

/-- The event a command posts (R101, R164); Idle where it posts none. -/
def eventPosted : Instr → State → Event
  | .signal e, _ => e
  | .haspend, _ => .idle
  | .take, _ => .idle
  | .advance _, _ => .idle
  | .arm _, _ => .idle
  | .disarm, _ => .idle
  | .block _, _ => .idle
  | .unblock _, _ => .idle
  | .gate, _ => .idle
  | .rdstat, _ => .idle
  | .rdblk _, _ => .idle
  | .clrstat, _ => .idle
  | .tick, _ => .idle
  | .cmpsvc, s => if s.cmpPend = true then .deferredTimerFired else .idle

/-- The events posted along a run, in its order, Idle for a step that posts none. -/
def eventsPosted : List (Port × Instr) → State → List Event
  | [], _ => []
  | (p, i) :: rest, s =>
    eventPosted i s ::
      match exec i { s with port := p } with
      | .next t => eventsPosted rest t
      | .fault _ => []
      | .refused _ => []

/-- The commands that arm or cancel no deadline, whatever the state (R160, R162): not ARM, not DISARM, not ADVANCE
MeasureRequested and not GATE, which may advance it. -/
def leavesDeadline : Instr → Bool
  | .signal _ => true
  | .haspend => true
  | .take => true
  | .advance e => decide (e ≠ .measureRequested)
  | .arm _ => false
  | .disarm => false
  | .block _ => true
  | .unblock _ => true
  | .gate => false
  | .rdstat => true
  | .rdblk _ => true
  | .clrstat => true
  | .tick => true
  | .cmpsvc => true

/-- R165 from the state `s`: of the TICKs that follow, among any commands that leave the deadline, the d-th is the first to
match. Before it the deadline is armed with no request; from it on it is disarmed, and the request is pending unless a
CMPSVC was among the commands. -/
def FiresAfter (d : Nat) (s : State) : Prop :=
  ∀ cs : List Instr, (∀ i ∈ cs, leavesDeadline i = true) →
    ∃ t, execAll cs s = .next t ∧ t.now = (s.now + cs.count .tick) % 2 ^ s.cfg.clkW ∧
      (cs.count .tick < d → t.armed = true ∧ t.cmpPend = false) ∧
      (d ≤ cs.count .tick → t.armed = false ∧ (.cmpsvc ∉ cs → t.cmpPend = true))

/-- The ten unmatched pairs of the table (R138: rows 3, 4, 5, 8, 10, 11, 14, 15, 20, 21 of R133). -/
def unmatchedPairs : List (SeqState × Event) :=
  [(.sensorOff, .deferredTimerFired), (.sensorOff, .transferDone), (.sensorOff, .transferError),
   (.awaitingPowerUp, .measureRequested), (.awaitingPowerUp, .transferDone), (.awaitingPowerUp, .transferError),
   (.awaitingWriteCompletion, .measureRequested), (.awaitingWriteCompletion, .deferredTimerFired),
   (.awaitingReadCompletion, .measureRequested), (.awaitingReadCompletion, .deferredTimerFired)]

/-- The pairs whose entry is a teardown out of a state other than SensorOff and nothing more (R127, R129, R130: rows 12, 17,
18, 23, 24 of R133). -/
def teardownPairs : List (SeqState × Event) :=
  [(.awaitingPowerUp, .linkLost), (.awaitingWriteCompletion, .transferError), (.awaitingWriteCompletion, .linkLost),
   (.awaitingReadCompletion, .transferError), (.awaitingReadCompletion, .linkLost)]

/-- The commands that write BLK[M-1] by the consumer's own hand, which R137 leaves out. -/
def blocksDeepest (c : Params) : Instr → Bool
  | .block lvl => decide (lvl.toNat = c.m - 1)
  | .unblock lvl => decide (lvl.toNat = c.m - 1)
  | .signal _ => false
  | .haspend => false
  | .take => false
  | .advance _ => false
  | .arm _ => false
  | .disarm => false
  | .gate => false
  | .rdstat => false
  | .rdblk _ => false
  | .clrstat => false
  | .tick => false
  | .cmpsvc => false

end Sys2Proof.Machine
end

