-- ==== Sys2Proof/Certificates/Slice0/Obligations.lean ====
section
/-!
DEFINITION. The statements for the provers. A next state is written out in full with a record update, so that an equation
with it states the command's frame too: every field not named is unchanged. EVMBX has no memory and no program counter.
-/

open Sys2Proof Sys2Proof.Machine

/-! ## Reset and the invariant -/

/-- R240: reset puts every state element at its reset value in one step, NOW and CMP at the draws, in every state (a
faulted one too). The parameters stay (R39). -/
def Obligations.ResetTurnLeavesResetValues : Prop :=
  ∀ (s : State) (now cmp : Nat) (replies : List BusReply) (received : List (List Byte)) (rest : List Turn),
    s.turns = .reset now cmp replies received :: rest → now < 2 ^ s.cfg.clkW → cmp < 2 ^ s.cfg.clkW →
    ∃ t, step s = .next t ∧
      t.slot = .idle ∧ t.fsm = .sensorOff ∧ t.now = now ∧ t.cmp = cmp ∧ t.armed = false ∧ t.cmpPend = false ∧
      t.railEn = false ∧ t.blk = List.replicate (s.cfg.m - 1) 0 ∧ t.sleeping = false ∧ t.mode = 0 ∧
      t.wTrunc = false ∧ t.wInvalid = false ∧ t.wReject = false ∧ t.dropCnt = 0 ∧
      t.fault = false ∧ t.fcause = 0 ∧ t.res = 0 ∧ t.out = [] ∧ t.cfg = s.cfg

/-- The invariant holds right after reset, under every legal configuration and every draw, and in State.reset (whose
parameters and draws are the model's choice, assumptions 1 and 4). -/
def Obligations.ResetMeetsInvariant : Prop :=
  (∀ (c : Params) (now cmp : Nat), c.Legal → (State.initial c now cmp).Inv ∧ (State.initial c now cmp).Paired) ∧
  State.reset.Inv ∧ State.reset.Paired

/-- Every step keeps the invariant. -/
def Obligations.StepKeepsInvariant : Prop :=
  ∀ s t : State, s.Inv → step s = .next t → t.Inv

/-- R39: no step writes the parameters. -/
def Obligations.StepKeepsParameters : Prop :=
  ∀ s t : State, step s = .next t → t.cfg = s.cfg

/-! ## Encoding and ports -/

/-- Decoding the word of a command, on a port that may issue it, gives the command, with every operand. A level field out of
range is among them: that it decodes, and BAD_LEVEL is raised by the command, is the model's choice (assumption 11). -/
def Obligations.DecodeOfEncode : Prop :=
  ∀ (i : Instr) (p : Port), mayIssue p (opcodeOfInstr i) = true → decode p (encode i) = .ok i

/-- A word that decodes is the word of the command it decodes to: each word has one meaning. -/
def Obligations.EncodeOfDecode : Prop :=
  ∀ (p : Port) (w : Word) (i : Instr), decode p w = .ok i → encode i = w

/-- Words of the table of spec/30_encoding.md section 9 and of R87 decode to the commands they stand for. -/
def Obligations.TableWordsDecode : Prop :=
  decode (.prod 1) 0x1A000000 = .ok (.signal .linkLost) ∧
  decode .cons 0x20000000 = .ok .haspend ∧
  decode .cons 0x30000000 = .ok .take ∧
  decode .cons 0x44000000 = .ok (.advance .deferredTimerFired) ∧
  decode .cons 0x500003E8 = .ok (.arm 1000) ∧
  decode .cons 0x60000000 = .ok .disarm ∧
  decode .cons 0x73000000 = .ok (.block 3) ∧
  decode .cons 0x82000000 = .ok (.unblock 2) ∧
  decode .cons 0x90000000 = .ok .gate ∧
  decode .cons 0xA0000000 = .ok .rdstat ∧
  decode .cons 0xB1000000 = .ok (.rdblk 1) ∧
  decode .cons 0xC0000000 = .ok .clrstat ∧
  decode .clk 0xD0000000 = .ok .tick ∧
  decode .cmp 0xE0000000 = .ok .cmpsvc

/-- R84, the decision for an agent's step on port `p` with word `w`, check by check in its order: a fault already held, a
sleeping consumer, ILLEGAL_OP, BAD_PORT, RSV_BITS, BAD_TAG, a CMPSVC that is not enabled, else the command of the opcode,
with the operands of the word, which for a level out of range raises BAD_LEVEL. That the turn of an agent of a faulted block
answers the fault `halted`, where R84 says no step, and that a bad level is decided by the command, after the decision to run
it, are the model's choices (assumptions 8 and 11). -/
def Obligations.DecodeChecksInOrder : Prop :=
  (∀ (s : State) (p : Port) (rest : List Turn),
    s.turns = .agent p :: rest → s.fault = true → step s = .fault (.halted s.fcause)) ∧
  ∀ (s : State) (p : Port) (w : Word),
    let op := w.toNat / 2 ^ 28
    let tag := w.toNat / 2 ^ 25 % 8
    let lvl := w.toNat / 2 ^ 24 % 16
    let listed : Bool :=
      match p with
      | .cons => op != 0xD && op != 0xE
      | .prod _ => op == 0x1
      | .clk => op == 0xD
      | .cmp => op == 0xE
    let reserved : Nat :=
      if op = 0x1 ∨ op = 0x4 then w.toNat % 2 ^ 25
      else if op = 0x7 ∨ op = 0x8 ∨ op = 0xB then w.toNat % 2 ^ 24
      else if op = 0x5 then w.toNat / 2 ^ 24 % 16
      else w.toNat % 2 ^ 28
    if p = .cons ∧ s.sleeping = true then verdict s p w = .wait
    else if op = 0x0 ∨ op = 0xF then verdict s p w = .fault .illegalOp
    else if listed = false then verdict s p w = .fault .badPort
    else if reserved ≠ 0 then verdict s p w = .fault .rsvBits
    else if (op = 0x1 ∨ op = 0x4) ∧ 6 ≤ tag then verdict s p w = .fault .badTag
    else if op = 0xE ∧ s.cmpPend = false then verdict s p w = .wait
    else ∃ i, verdict s p w = .run i ∧ (opcodeBits (opcodeOfInstr i)).toNat = op ∧ encode i = w ∧
      ((op = 0x7 ∨ op = 0x8 ∨ op = 0xB) ∧ (lvl = 0 ∨ s.cfg.m ≤ lvl) →
        exec i s = .next { s with fault := true, fcause := 5 })

/-- R222: the rights of the ports, and BAD_PORT for a command on a port without the right. The words of BLOCK, UNBLOCK and
RDBLK with a level out of range count as decoded here: their BAD_LEVEL is raised by the command, the model's choice
(assumption 11). -/
def Obligations.PortRights : Prop :=
  (∀ w i, decode .cons w = .ok i → i ≠ .tick ∧ i ≠ .cmpsvc) ∧
  (∀ k w i, decode (.prod k) w = .ok i → ∃ e, i = .signal e) ∧
  (∀ w i, decode .clk w = .ok i → i = .tick) ∧
  (∀ w i, decode .cmp w = .ok i → i = .cmpsvc) ∧
  (∀ i, i ≠ .tick → i ≠ .cmpsvc → decode .cons (encode i) = .ok i) ∧
  (∀ i k, (∀ e, i ≠ .signal e) → decode (.prod k) (encode i) = .error .badPort) ∧
  (∀ i, i ≠ .tick → decode .clk (encode i) = .error .badPort) ∧
  (∀ i, i ≠ .cmpsvc → decode .cmp (encode i) = .error .badPort) ∧
  decode .cons (encode .tick) = .error .badPort ∧ decode .cons (encode .cmpsvc) = .error .badPort

/-- From R51 and R52: a whole word of a byte bus is little-endian and is offered on the port; an access of any other number
of bytes is refused. Both clauses rest on the model's reading in assumption 9: that an access is a turn whose word is queued
behind the words the port already offers, and that an access of more than four bytes is refused too, where R52 speaks of a
partial-word write only. -/
def Obligations.ByteBusIsLittleEndian : Prop :=
  (∀ (s : State) (p : Port) (w : Word) (rest : List Turn),
    s.turns = .write p [w.extractLsb' 0 8, w.extractLsb' 8 8, w.extractLsb' 16 8, w.extractLsb' 24 8] :: rest →
    s.fault = false → portExists s.cfg p = true →
    step s = .next { s with offered := s.offered ++ [(p, w)], turns := rest }) ∧
  (∀ (s : State) (p : Port) (bytes : List Byte) (rest : List Turn),
    s.turns = .write p bytes :: rest → bytes.length ≠ 4 → s.fault = false → portExists s.cfg p = true →
    step s = .refused (.partialWord p))

/-! ## The step -/

/-- A step runs the decoded command: the agent whose turn it is issues the word it offers, and the step is `exec` of what
the word decodes to, unless the consumer sleeps or CMPSVC is not enabled. -/
def Obligations.StepRunsOfferedCommand : Prop :=
  ∀ (s : State) (p : Port) (rest : List Turn) (w : Word) (i : Instr),
    s.turns = .agent p :: rest → s.fault = false → portExists s.cfg p = true →
    wordOffered p s.offered = some w → decode p w = .ok i →
    ¬(p = .cons ∧ s.sleeping = true) → ¬(i = .cmpsvc ∧ s.cmpPend = false) →
    step s = exec i { s with turns := rest, port := p, offered := wordIssued p s.offered }

/-- A word that fails a decode check raises its fault (R214): FAULT and FCAUSE are written and no other element of R22. -/
def Obligations.MalformedWordFaults : Prop :=
  ∀ (s : State) (p : Port) (rest : List Turn) (w : Word) (c : Cause),
    s.turns = .agent p :: rest → s.fault = false → portExists s.cfg p = true →
    wordOffered p s.offered = some w → decode p w = .error c → ¬(p = .cons ∧ s.sleeping = true) →
    step s = .next
      { s with
        turns := rest, port := p, offered := wordIssued p s.offered, fault := true
        fcause :=
          match c with
          | .illegalOp => 1
          | .badPort => 2
          | .rsvBits => 3
          | .badTag => 4
          | .badLevel => 5
          | .blkOverflow => 6
          | .blkUnderflow => 7 }

/-- R186: while SLEEPING = 1 the consumer port has no step, whatever word waits on it, and the decision for any other port
is the same as for an awake consumer. -/
def Obligations.SleepingConsumerWaits : Prop :=
  (∀ (s : State) (w : Word), s.sleeping = true → verdict s .cons w = .wait) ∧
  (∀ (s : State) (p : Port) (w : Word), p ≠ .cons →
    verdict { s with sleeping := true } p w = verdict { s with sleeping := false } p w)

/-- An agent that has no step (R9, R84: a sleeping consumer, a CMPSVC that is not enabled) waits, and its word with it. That
its turn is spent is the model's choice (assumption 6). -/
def Obligations.WaitingAgentKeepsItsWord : Prop :=
  ∀ (s : State) (p : Port) (rest : List Turn) (w : Word),
    s.turns = .agent p :: rest → s.fault = false → portExists s.cfg p = true → wordOffered p s.offered = some w →
    (p = .cons ∧ s.sleeping = true) ∨ (p = .cmp ∧ w = 0xE0000000 ∧ s.cmpPend = false) →
    step s = .next { s with turns := rest }

/-- R215: after a fault every turn but a reset finds the block halted, and a reset clears the fault. -/
def Obligations.HaltedUntilReset : Prop :=
  ∀ s : State, s.fault = true →
    (∀ p rest, s.turns = .agent p :: rest → step s = .fault (.halted s.fcause)) ∧
    (∀ p bytes rest, s.turns = .write p bytes :: rest → step s = .fault (.halted s.fcause)) ∧
    (s.turns = [] → step s = .fault (.halted s.fcause)) ∧
    (∀ now cmp rs bs rest, s.turns = .reset now cmp rs bs :: rest → ∃ t, step s = .next t ∧ t.fault = false ∧ t.fcause = 0)

/-! ## Mailbox -/

/-- R100, R101: the words of SIGNAL, and its effect. Idle has no effect, an empty slot takes the event, a full slot keeps
its event and the drop is counted, saturating; on a producer port a sleeping consumer wakes whatever becomes of the post. -/
def Obligations.SignalPosts : Prop :=
  EncodedT 0x1 (fun p => match p with | .cons => true | .prod _ => true | .clk => false | .cmp => false) .signal ∧
  ∀ (e : Event) (s : State),
    let wakes : Bool := (match s.port with | .prod _ => true | _ => false) && s.sleeping
    exec (.signal e) s = .next
      { s with
        slot := if s.slot = .idle then e else s.slot
        dropCnt := if e = .idle ∨ s.slot = .idle ∨ s.dropCnt = 0xFFFF then s.dropCnt else s.dropCnt + 1
        sleeping := if wakes = true then false else s.sleeping
        mode := if wakes = true then 0 else s.mode
        out := if wakes = true then s.out ++ [.wake] else s.out }

/-- R102: the word of HASPEND, and its effect: PEND is written to RES. -/
def Obligations.HaspendReadsPending : Prop :=
  EncodedN 0x2 consumerOnly .haspend ∧
  ∀ s : State, exec .haspend s = .next { s with res := if s.slot = .idle then 0 else 1 }

/-- R103: the word of TAKE, and its effect: it returns the slot's tag and empties the slot. -/
def Obligations.TakeReadsAndClears : Prop :=
  EncodedN 0x3 consumerOnly .take ∧
  ∀ s : State, exec .take s = .next
    { s with
      slot := .idle
      res :=
        match s.slot with
        | .idle => 0
        | .measureRequested => 1
        | .deferredTimerFired => 2
        | .transferDone => 3
        | .transferError => 4
        | .linkLost => 5 }

/-- R57, R104: the event a TAKE returns is the first that is not Idle of all posted since the slot was empty, by SIGNALs of
any agent and by CMPSVC, among any commands but TAKE, GATE and CLRSTAT; every later one is dropped and counted. With nobody
woken and SIGNALs alone, on any ports, nothing else changes but the port noted (assumption 7). The runs are of `exec`: what
stops a step (R84) is not asked. -/
def Obligations.FirstPostSurvives : Prop :=
  (∀ (cs : List (Port × Instr)) (s : State), s.slot = .idle →
    (∀ c ∈ cs, c.2 ≠ .take ∧ c.2 ≠ .gate ∧ c.2 ≠ .clrstat) →
    let posts := (eventsPosted cs s).filter fun e => e != .idle
    ∃ t, runOn (cs ++ [(.cons, .take)]) s = .next t ∧ t.slot = .idle ∧
      t.res = (eventTag (posts.head?.getD .idle)).setWidth 32 ∧
      t.dropCnt = BitVec.ofNat 16 (min 65535 (s.dropCnt.toNat + (posts.length - 1)))) ∧
  (∀ (es : List (Port × Event)) (s : State), s.slot = .idle →
    (s.sleeping = true → ∀ pe ∈ es, ∀ k, pe.1 ≠ .prod k) →
    let posts := (es.map Prod.snd).filter fun e => e != .idle
    runOn ((es.map fun pe => (pe.1, .signal pe.2)) ++ [(.cons, .take)]) s = .next
      { s with
        port := .cons
        dropCnt := BitVec.ofNat 16 (min 65535 (s.dropCnt.toNat + (posts.length - 1)))
        res := (eventTag (posts.head?.getD .idle)).setWidth 32 })

/-- R104: a pending event leaves the slot only by TAKE or GATE, whatever else runs. -/
def Obligations.PendingEventIsKept : Prop :=
  ∀ (i : Instr) (s t : State), s.slot ≠ .idle → i ≠ .take → i ≠ .gate → exec i s = .next t → t.slot = s.slot

/-! ## Sequencer -/

/-- From R120: the words of ADVANCE. It answers a next state that either returns FSM in RES and leaves what no entry writes
(SLOT, NOW, SLEEPING, MODE, DROP_CNT, the counts of the shallower modes), or is the faulted state of one of its two counter
faults, nothing else written. When a fault must come is said by AdvanceCounterFaults, that SLOT is not read by
SignalCommutesWithAdvance. -/
def Obligations.AdvanceReturnsState : Prop :=
  EncodedT 0x4 consumerOnly .advance ∧
  ∀ (e : Event) (s : State), s.fault = false → ∃ t, exec (.advance e) s = .next t ∧
    ((t.fault = false ∧ t.slot = s.slot ∧ t.now = s.now ∧ t.sleeping = s.sleeping ∧ t.mode = s.mode ∧
        t.dropCnt = s.dropCnt ∧ (∀ l, 1 ≤ l → l < s.cfg.m - 1 → blkAt t l = blkAt s l) ∧
        t.res =
          match t.fsm with
          | .sensorOff => 0
          | .awaitingPowerUp => 1
          | .awaitingWriteCompletion => 2
          | .awaitingReadCompletion => 3) ∨
     (s.fsm = .sensorOff ∧ e = .measureRequested ∧ blkAt s (s.cfg.m - 1) = 2 ^ s.cfg.bcW - 1 ∧
        t = { s with fault := true, fcause := 6 }) ∨
     (s.fsm ≠ .sensorOff ∧ blkAt s (s.cfg.m - 1) = 0 ∧ t = { s with fault := true, fcause := 7 }))

/-- R122: ADVANCE Idle changes nothing but RES, which returns FSM. -/
def Obligations.AdvanceIdleIsSelfLoop : Prop :=
  ∀ s : State, exec (.advance .idle) s = .next
    { s with
      res :=
        match s.fsm with
        | .sensorOff => 0
        | .awaitingPowerUp => 1
        | .awaitingWriteCompletion => 2
        | .awaitingReadCompletion => 3 }

/-- R123: SensorOff and MeasureRequested: rail on, block of mode M-1, settle deadline armed, next state AwaitingPowerUp. -/
def Obligations.AdvanceStartsAcquisition : Prop :=
  ∀ s : State, s.fsm = .sensorOff → blkAt s (s.cfg.m - 1) ≠ 2 ^ s.cfg.bcW - 1 →
    exec (.advance .measureRequested) s = .next
      { s with
        fsm := .awaitingPowerUp
        railEn := true
        blk := s.blk.set (s.cfg.m - 1 - 1) (blkAt s (s.cfg.m - 1) + 1)
        cmp := (s.now + max (min (ticksOf s.cfg s.cfg.tSettleUs) s.cfg.maxDelay) 1) % 2 ^ s.cfg.clkW
        armed := true
        cmpPend := false
        wTrunc := if s.cfg.maxDelay < ticksOf s.cfg s.cfg.tSettleUs then true else s.wTrunc
        res := 1
        out :=
          s.out ++ [.railOn, .block (s.cfg.m - 1)] ++
            (if s.cfg.maxDelay < ticksOf s.cfg s.cfg.tSettleUs
              then [.logTrunc (ticksOf s.cfg s.cfg.tSettleUs) s.cfg.maxDelay] else []) ++
            [.logTransition .sensorOff .awaitingPowerUp] }

/-- R124: AwaitingPowerUp and DeferredTimerFired: the write begins; accepted, the sequencer moves on, rejected, it remains
and the rejection is logged. The answer is a draw: this holds for both. -/
def Obligations.AdvanceBeginsWrite : Prop :=
  ∀ s : State, s.fsm = .awaitingPowerUp →
    exec (.advance .deferredTimerFired) s = .next
      (if nextReply s = .accepted then
        { s with
          fsm := .awaitingWriteCompletion
          res := 2
          replies := s.replies.tail
          draws := s.draws + 1
          out := s.out ++ [.busWrite s.cfg.writeCmd, .logTransition .awaitingPowerUp .awaitingWriteCompletion] }
      else
        { s with
          wReject := true
          res := 1
          replies := s.replies.tail
          draws := s.draws + 1
          out := s.out ++ [.busWrite s.cfg.writeCmd, .logReject .awaitingPowerUp] })

/-- R126: AwaitingWriteCompletion and TransferDone: the read begins; accepted, the sequencer moves on, rejected, the
rejection is logged and the acquisition torn down, which needs a block to release (without one: AdvanceCounterFaults). The
answer is a draw: this holds for both. How it is supplied is the model's choice (assumption 5). -/
def Obligations.AdvanceBeginsRead : Prop :=
  ∀ s : State, s.fsm = .awaitingWriteCompletion → (nextReply s = .rejected → blkAt s (s.cfg.m - 1) ≠ 0) →
    exec (.advance .transferDone) s = .next
      (if nextReply s = .accepted then
        { s with
          fsm := .awaitingReadCompletion
          res := 3
          replies := s.replies.tail
          draws := s.draws + 1
          out :=
            s.out ++ [.busRead s.cfg.readLen, .logTransition .awaitingWriteCompletion .awaitingReadCompletion] }
      else
        { s with
          fsm := .sensorOff
          wReject := true
          railEn := false
          blk := s.blk.set (s.cfg.m - 1 - 1) (blkAt s (s.cfg.m - 1) - 1)
          res := 0
          replies := s.replies.tail
          draws := s.draws + 1
          out :=
            s.out ++
              [.busRead s.cfg.readLen, .logReject .awaitingWriteCompletion, .railOff, .unblock (s.cfg.m - 1), .busReset,
               .logTransition .awaitingWriteCompletion .sensorOff] })

/-- R125, R127, R129, R130: the teardown entries. Out of a state other than SensorOff the block is released; from SensorOff
(LinkLost) the rail and the bus driver alone are reset and no transition is logged. -/
def Obligations.AdvanceTearsDown : Prop :=
  (∀ (e : Event) (s : State), (s.fsm, e) ∈ teardownPairs → blkAt s (s.cfg.m - 1) ≠ 0 →
    exec (.advance e) s = .next
      { s with
        fsm := .sensorOff
        railEn := false
        blk := s.blk.set (s.cfg.m - 1 - 1) (blkAt s (s.cfg.m - 1) - 1)
        res := 0
        out := s.out ++ [.railOff, .unblock (s.cfg.m - 1), .busReset, .logTransition s.fsm .sensorOff] }) ∧
  (∀ s : State, s.fsm = .sensorOff →
    exec (.advance .linkLost) s = .next { s with railEn := false, res := 0, out := s.out ++ [.railOff, .busReset] })

/-- R128: AwaitingReadCompletion and TransferDone: teardown, then the decoded bytes are published. The bytes are a draw of
READ_LEN bytes. -/
def Obligations.AdvancePublishes : Prop :=
  ∀ s : State, s.fsm = .awaitingReadCompletion → blkAt s (s.cfg.m - 1) ≠ 0 →
    (nextReceived s).length = s.cfg.readLen ∧
    exec (.advance .transferDone) s = .next
      { s with
        fsm := .sensorOff
        railEn := false
        blk := s.blk.set (s.cfg.m - 1 - 1) (blkAt s (s.cfg.m - 1) - 1)
        res := 0
        received := s.received.tail
        draws := s.draws + 1
        out :=
          s.out ++
            [.railOff, .unblock (s.cfg.m - 1), .busReset, .publish (Config.decodeValue (nextReceived s)),
             .logTransition .awaitingReadCompletion .sensorOff] }

/-- R131: an unmatched pair leaves the state and is logged as a warning. -/
def Obligations.UnmatchedPairIsLogged : Prop :=
  ∀ (e : Event) (s : State), (s.fsm, e) ∈ unmatchedPairs →
    exec (.advance e) s = .next
      { s with
        wInvalid := true
        out := s.out ++ [.logInvalid s.fsm e]
        res :=
          match s.fsm with
          | .sensorOff => 0
          | .awaitingPowerUp => 1
          | .awaitingWriteCompletion => 2
          | .awaitingReadCompletion => 3 }

/-- R120, R211, R214: the two execution faults of ADVANCE; nothing but FAULT and FCAUSE is written. -/
def Obligations.AdvanceCounterFaults : Prop :=
  (∀ s : State, s.fsm = .sensorOff → blkAt s (s.cfg.m - 1) = 2 ^ s.cfg.bcW - 1 →
    exec (.advance .measureRequested) s = .next { s with fault := true, fcause := 6 }) ∧
  (∀ (e : Event) (s : State),
    ((s.fsm, e) ∈ teardownPairs ∨ (s.fsm = .awaitingReadCompletion ∧ e = .transferDone) ∨
      (s.fsm = .awaitingWriteCompletion ∧ e = .transferDone ∧ nextReply s = .rejected)) →
    blkAt s (s.cfg.m - 1) = 0 →
    exec (.advance e) s = .next { s with fault := true, fcause := 7 })

/-- R132: an ADVANCE that raises no fault logs the transition exactly when the state changed, once and last. -/
def Obligations.TransitionLoggedExactly : Prop :=
  ∀ (e : Event) (s t : State), s.fault = false → exec (.advance e) s = .next t → t.fault = false →
    ∃ es : List OutEvent,
      (∀ a b, OutEvent.logTransition a b ∉ es) ∧
      t.out = s.out ++ es ++ (if t.fsm = s.fsm then [] else [.logTransition s.fsm t.fsm])

/-- R212: where the pairing holds, ADVANCE and a taking GATE raise no fault. -/
def Obligations.PairedAdvanceNeverFaults : Prop :=
  ∀ s : State, s.Inv → s.Paired → s.fault = false →
    (∀ e, ∃ t, exec (.advance e) s = .next t ∧ t.fault = false) ∧ (∃ t, exec .gate s = .next t ∧ t.fault = false)

/-- R137: every command but a BLOCK or UNBLOCK of the deepest mode keeps the pairing. -/
def Obligations.PairingIsKept : Prop :=
  ∀ (i : Instr) (s t : State), s.Inv → s.Paired → blocksDeepest s.cfg i = false → exec i s = .next t → t.Paired

/-- R135: a SIGNAL before an ADVANCE and the same SIGNAL after it give the same state, if nobody sleeps. (Where the ADVANCE
raises a fault this speaks of `exec` alone: R215 lets no command follow it.) -/
def Obligations.SignalCommutesWithAdvance : Prop :=
  ∀ (e f : Event) (s : State), s.sleeping = false →
    execAll [.signal e, .advance f] s = execAll [.advance f, .signal e] s

/-! ## Deferred trigger -/

/-- R160, R161, R167: the words of ARM, and its effect: it arms the deadline, capped with a warning and at least one tick
away. -/
def Obligations.ArmSetsDeadline : Prop :=
  EncodedA 0x5 consumerOnly .arm ∧
  ∀ (off : BitVec 24) (s : State), exec (.arm off) s = .next
    { s with
      cmp := (s.now + max (min (ticksOf s.cfg off.toNat) s.cfg.maxDelay) 1) % 2 ^ s.cfg.clkW
      armed := true
      cmpPend := false
      wTrunc := if s.cfg.maxDelay < ticksOf s.cfg off.toNat then true else s.wTrunc
      out :=
        if s.cfg.maxDelay < ticksOf s.cfg off.toNat
          then s.out ++ [.logTrunc (ticksOf s.cfg off.toNat) s.cfg.maxDelay] else s.out }

/-- R162: the word of DISARM, and its effect: it clears ARMED and CMP_PEND and nothing else. -/
def Obligations.DisarmCancels : Prop :=
  EncodedN 0x6 consumerOnly .disarm ∧
  ∀ s : State, exec .disarm s = .next { s with armed := false, cmpPend := false }

/-- R163: the word of TICK, and its effect: it counts, and matches on the counted value while armed. -/
def Obligations.TickCountsAndMatches : Prop :=
  EncodedN 0xD (fun p => decide (p = .clk)) .tick ∧
  ∀ s : State, exec .tick s = .next
    { s with
      now := (s.now + 1) % 2 ^ s.cfg.clkW
      cmpPend := if s.armed = true ∧ (s.now + 1) % 2 ^ s.cfg.clkW = s.cmp then true else s.cmpPend
      armed := if s.armed = true ∧ (s.now + 1) % 2 ^ s.cfg.clkW = s.cmp then false else s.armed }

/-- R164: the word of CMPSVC; with CMP_PEND = 0 the agent has no step; with a request pending it posts DeferredTimerFired,
clears the request and wakes a sleeping consumer. -/
def Obligations.CmpsvcPosts : Prop :=
  EncodedN 0xE (fun p => decide (p = .cmp)) .cmpsvc ∧
  (∀ s : State, s.cmpPend = false → verdict s .cmp 0xE0000000 = .wait) ∧
  ∀ s : State, s.cmpPend = true →
    verdict s .cmp 0xE0000000 = .run .cmpsvc ∧
    exec .cmpsvc s = .next
      { s with
        cmpPend := false
        slot := if s.slot = .idle then .deferredTimerFired else s.slot
        dropCnt := if s.slot = .idle ∨ s.dropCnt = 0xFFFF then s.dropCnt else s.dropCnt + 1
        sleeping := false
        mode := if s.sleeping = true then 0 else s.mode
        out := if s.sleeping = true then s.out ++ [.wake] else s.out }

/-- R165: after any ArmCore step with effective delay d, the d-th TICK is the first to match: from every state just armed,
and so after ARM, after ADVANCE MeasureRequested in SensorOff (the settle deadline), and after a GATE that takes it. -/
def Obligations.DeadlineFiresOnTime : Prop :=
  (∀ (d : Nat) (s : State), s.cfg.Legal → s.now < 2 ^ s.cfg.clkW → 1 ≤ d → d ≤ s.cfg.maxDelay →
    s.armed = true → s.cmpPend = false → s.cmp = (s.now + d) % 2 ^ s.cfg.clkW → FiresAfter d s) ∧
  (∀ (off : BitVec 24) (s : State), s.cfg.Legal → s.now < 2 ^ s.cfg.clkW →
    ∃ t, exec (.arm off) s = .next t ∧ t.now = s.now ∧
      FiresAfter (max (min (ticksOf s.cfg off.toNat) s.cfg.maxDelay) 1) t) ∧
  (∀ s : State, s.cfg.Legal → s.now < 2 ^ s.cfg.clkW → s.fsm = .sensorOff →
    blkAt s (s.cfg.m - 1) ≠ 2 ^ s.cfg.bcW - 1 →
    (∃ t, exec (.advance .measureRequested) s = .next t ∧ t.now = s.now ∧
      FiresAfter (max (min (ticksOf s.cfg s.cfg.tSettleUs) s.cfg.maxDelay) 1) t) ∧
    (s.slot = .measureRequested →
      ∃ t, exec .gate s = .next t ∧ t.now = s.now ∧
        FiresAfter (max (min (ticksOf s.cfg s.cfg.tSettleUs) s.cfg.maxDelay) 1) t))

/-- R166: while not armed no TICK matches, however many there are: only NOW changes. -/
def Obligations.NoMatchUntilNextArm : Prop :=
  ∀ (k : Nat) (s : State), s.armed = false → s.now < 2 ^ s.cfg.clkW →
    execAll (List.replicate k .tick) s = .next { s with now := (s.now + k) % 2 ^ s.cfg.clkW }

/-! ## Power gate -/

/-- From R181: the words of BLOCK, and its effect: one block more, or BAD_LEVEL, or BLK_OVERFLOW, a fault writing nothing
else. That a word with a bad level decodes and the command raises BAD_LEVEL is the model's choice (assumption 11). -/
def Obligations.BlockAdds : Prop :=
  EncodedL 0x7 consumerOnly .block ∧
  ∀ (lvl : BitVec 4) (s : State), exec (.block lvl) s = .next
    (if lvl = 0 ∨ s.cfg.m ≤ lvl.toNat then { s with fault := true, fcause := 5 }
    else if blkAt s lvl.toNat = 2 ^ s.cfg.bcW - 1 then { s with fault := true, fcause := 6 }
    else
      { s with
        blk := s.blk.set (lvl.toNat - 1) (blkAt s lvl.toNat + 1)
        out := s.out ++ [.block lvl.toNat] })

/-- From R182: the words of UNBLOCK, and its effect: one block less, or BAD_LEVEL, or BLK_UNDERFLOW, a fault writing nothing
else. That a word with a bad level decodes and the command raises BAD_LEVEL is the model's choice (assumption 11). -/
def Obligations.UnblockRemoves : Prop :=
  EncodedL 0x8 consumerOnly .unblock ∧
  ∀ (lvl : BitVec 4) (s : State), exec (.unblock lvl) s = .next
    (if lvl = 0 ∨ s.cfg.m ≤ lvl.toNat then { s with fault := true, fcause := 5 }
    else if blkAt s lvl.toNat = 0 then { s with fault := true, fcause := 7 }
    else
      { s with
        blk := s.blk.set (lvl.toNat - 1) (blkAt s lvl.toNat - 1)
        out := s.out ++ [.unblock lvl.toNat] })

/-- R180: AllowedMode() is the deepest mode such that it and every shallower sleep mode has no block. -/
def Obligations.AllowedModeIsDeepestUnblocked : Prop :=
  ∀ s : State,
    allowedMode s ≤ s.cfg.m - 1 ∧
    (∀ l, 1 ≤ l → l ≤ allowedMode s → blkAt s l = 0) ∧
    (allowedMode s < s.cfg.m - 1 → 0 < blkAt s (allowedMode s + 1))

/-- R183, R184: the word of GATE, and its effect. With an empty slot it sleeps in the allowed mode or returns 0; with a
pending event it takes it and runs its transition in the same step, and a fault of the transition leaves the event in the
slot. -/
def Obligations.GateRunsLoopBody : Prop :=
  EncodedN 0x9 consumerOnly .gate ∧
  ∀ s : State, s.fault = false →
    (s.slot = .idle → allowedMode s = 0 → exec .gate s = .next { s with res := 0 }) ∧
    (s.slot = .idle → allowedMode s ≠ 0 → exec .gate s = .next
      { s with
        mode := BitVec.ofNat 4 (allowedMode s)
        sleeping := true
        res := BitVec.ofNat 32 (allowedMode s) <<< 12
        out := s.out ++ [.sleep (allowedMode s)] }) ∧
    (s.slot ≠ .idle → ∃ t, exec (.advance s.slot) { s with slot := .idle } = .next t ∧
      exec .gate s = .next
        (if t.fault = true then { s with fault := true, fcause := t.fcause }
        else { t with res := (1#32 <<< 8) ||| (t.res <<< 4) ||| (eventTag s.slot).setWidth 32 }))

/-- R189: with no block but the sequencer's own, the allowed mode is M-1 in SensorOff and M-2 in every other state. -/
def Obligations.SleepDepthFollowsSequencer : Prop :=
  ∀ s : State, s.Inv → s.Paired → (∀ l, 1 ≤ l → l < s.cfg.m - 1 → blkAt s l = 0) →
    allowedMode s = if s.fsm = .sensorOff then s.cfg.m - 1 else s.cfg.m - 2

/-- R185: a sleeping consumer wakes exactly by a SIGNAL on a producer port or a CMPSVC with its request pending (so by no
TICK), and a wake clears MODE and is emitted. -/
def Obligations.OnlyInterruptsWake : Prop :=
  ∀ (i : Instr) (s t : State), exec i s = .next t → s.sleeping = true →
    (t.sleeping = false ↔ (∃ e k, i = .signal e ∧ s.port = .prod k) ∨ (i = .cmpsvc ∧ s.cmpPend = true)) ∧
    (t.sleeping = false → t.mode = 0 ∧ t.out = s.out ++ [.wake])

/-! ## Diagnostics -/

/-- R200: the word of RDSTAT, and its effect: the status word, field by field, in RES. -/
def Obligations.RdstatReadsStatus : Prop :=
  EncodedN 0xA consumerOnly .rdstat ∧
  ∀ s : State, ∃ w : Word, exec .rdstat s = .next { s with res := w } ∧
    w.extractLsb' 16 16 = s.dropCnt ∧ w.extractLsb' 11 5 = 0 ∧ w.getLsbD 10 = s.wReject ∧ w.getLsbD 9 = s.wInvalid ∧
    w.getLsbD 8 = s.wTrunc ∧ w.getLsbD 7 = s.railEn ∧ w.getLsbD 6 = s.cmpPend ∧ w.getLsbD 5 = s.armed ∧
    w.extractLsb' 2 3 = eventTag s.slot ∧ w.extractLsb' 0 2 = seqCode s.fsm

/-- From R201: the words of RDBLK, and its effect: the count of a legal level in RES, or BAD_LEVEL. That a word with a bad
level decodes and the command raises BAD_LEVEL is the model's choice (assumption 11). -/
def Obligations.RdblkReadsCount : Prop :=
  EncodedL 0xB consumerOnly .rdblk ∧
  ∀ (lvl : BitVec 4) (s : State), exec (.rdblk lvl) s = .next
    (if lvl = 0 ∨ s.cfg.m ≤ lvl.toNat then { s with fault := true, fcause := 5 }
    else { s with res := BitVec.ofNat 32 (blkAt s lvl.toNat) })

/-- R202: the word of CLRSTAT, and its effect: it clears the warnings and the drop counter and nothing else. -/
def Obligations.ClrstatClears : Prop :=
  EncodedN 0xC consumerOnly .clrstat ∧
  ∀ s : State, exec .clrstat s = .next { s with wTrunc := false, wInvalid := false, wReject := false, dropCnt := 0 }

/-- R54: HASPEND, RDSTAT and RDBLK change only RES, and twice in a row they leave what once leaves. -/
def Obligations.ReadsAreIdempotent : Prop :=
  ∀ (i : Instr) (s t : State), (i = .haspend ∨ i = .rdstat ∨ ∃ lvl, i = .rdblk lvl ∧ LegalLevel s.cfg lvl) →
    exec i s = .next t → t = { s with res := t.res } ∧ exec i t = .next t

/-! ## Whole-machine rules -/

/-- From R214: faults are precise: whatever raises one in an agent's step (a malformed word or a command), the state after it
is the state before it but for FAULT and FCAUSE. That the turn and the issued word are spent and the port noted, and that the
entry is a next state, is the model's choice (assumptions 6, 7 and 8). -/
def Obligations.FaultsArePrecise : Prop :=
  ∀ (s t : State) (p : Port) (rest : List Turn),
    s.turns = .agent p :: rest → s.fault = false → step s = .next t → t.fault = true →
    t = { s with turns := rest, port := p, offered := wordIssued p s.offered, fault := true, fcause := t.fcause } ∧
    1 ≤ t.fcause.toNat ∧ t.fcause.toNat ≤ 7

/-- R211, R212: which command raises which fault in its execution: BAD_LEVEL, BLK_OVERFLOW and BLK_UNDERFLOW, by the commands
named and by no other. -/
def Obligations.FaultCausesByCommand : Prop :=
  ∀ (i : Instr) (s t : State), s.fault = false → exec i s = .next t → t.fault = true →
    t.fcause = 5 ∧ (∃ lvl, i = .block lvl ∨ i = .unblock lvl ∨ i = .rdblk lvl) ∨
    t.fcause = 6 ∧ ((∃ lvl, i = .block lvl) ∨ (∃ e, i = .advance e) ∨ i = .gate) ∨
    t.fcause = 7 ∧ ((∃ lvl, i = .unblock lvl) ∨ (∃ e, i = .advance e) ∨ i = .gate)

/-- Every command answers a next state: nothing is refused, and execution itself never stops the machine (a fault of a
command is an entry, R214, into a state from which the next step is halted). -/
def Obligations.EveryCommandCompletes : Prop :=
  ∀ (i : Instr) (s : State), ∃ t, exec i s = .next t

/-- The "written by" column of R22, all its rows: an element is left unchanged by every command that its row does not name.
SIGNAL writes SLEEPING and MODE on a producer port only. FAULT and FCAUSE are written by fault entry alone (R214), and OUT by
emit alone, which appends (R38). -/
def Obligations.WrittenOnlyByNamedCommands : Prop :=
  ∀ (i : Instr) (s t : State), exec i s = .next t →
    let op := opcodeOfInstr i
    (op ∉ [.signal, .cmpsvc, .take, .gate] → t.slot = s.slot) ∧
    (op ∉ [.advance, .gate] → t.fsm = s.fsm) ∧
    (op ∉ [.tick] → t.now = s.now) ∧
    (op ∉ [.arm, .advance, .gate] → t.cmp = s.cmp) ∧
    (op ∉ [.arm, .disarm, .tick, .advance, .gate] → t.armed = s.armed) ∧
    (op ∉ [.tick, .cmpsvc, .arm, .disarm, .advance, .gate] → t.cmpPend = s.cmpPend) ∧
    (op ∉ [.advance, .gate] → t.railEn = s.railEn) ∧
    (op ∉ [.block, .unblock, .advance, .gate] → t.blk = s.blk) ∧
    (op ∉ [.gate, .cmpsvc] → ¬(op = .signal ∧ ∃ k, s.port = .prod k) → t.sleeping = s.sleeping ∧ t.mode = s.mode) ∧
    (op ∉ [.arm, .advance, .gate, .clrstat] → t.wTrunc = s.wTrunc) ∧
    (op ∉ [.advance, .gate, .clrstat] → t.wInvalid = s.wInvalid ∧ t.wReject = s.wReject) ∧
    (op ∉ [.signal, .cmpsvc, .clrstat] → t.dropCnt = s.dropCnt) ∧
    (t.fault = s.fault ∧ t.fcause = s.fcause ∨
      op ∈ [.block, .unblock, .rdblk, .advance, .gate] ∧ t = { s with fault := true, fcause := t.fcause }) ∧
    (op ∉ [.haspend, .take, .advance, .gate, .rdstat, .rdblk] → t.res = s.res) ∧
    (∃ es, t.out = s.out ++ es) ∧
    (op ∉ [.advance, .arm, .block, .unblock, .gate, .cmpsvc] → ¬(op = .signal ∧ ∃ k, s.port = .prod k) → t.out = s.out)

/-- R86: SIGNAL, ARM, DISARM, BLOCK, UNBLOCK, CLRSTAT, TICK and CMPSVC leave RES unchanged. -/
def Obligations.ResWrittenOnlyByResultCommands : Prop :=
  ∀ (i : Instr) (s t : State), exec i s = .next t →
    i ≠ .haspend → i ≠ .take → (∀ e, i ≠ .advance e) → i ≠ .gate → i ≠ .rdstat → (∀ lvl, i ≠ .rdblk lvl) →
    t.res = s.res

/-- R38: a command only appends to the output trace. -/
def Obligations.OutputOnlyGrows : Prop :=
  ∀ (i : Instr) (s t : State), exec i s = .next t → ∃ es, t.out = s.out ++ es

/-- R34, R35: the warnings and the drop counter are cleared by no command but CLRSTAT. -/
def Obligations.WarningsAreSticky : Prop :=
  ∀ (i : Instr) (s t : State), i ≠ .clrstat → exec i s = .next t →
    (s.wTrunc = true → t.wTrunc = true) ∧ (s.wInvalid = true → t.wInvalid = true) ∧
    (s.wReject = true → t.wReject = true) ∧ s.dropCnt.toNat ≤ t.dropCnt.toNat

/-- From R228 and R89: no answer drawn before a reset, one that a fault has discarded among them (R214), binds a draw after
it: from every state, faulted or not and whatever answers it holds, the reset turns that the environment may choose lead to
every next bus answer and every next string of READ_LEN received bytes; where a turn fixes no answer the next draw is a free
value of a new number. That a reset turn carries the answers is the model's choice (assumptions 5 and 16). -/
def Obligations.ResetLeavesAnswersFree : Prop :=
  ∀ (s : State) (now cmp : Nat) (replies : List BusReply) (received : List (List Byte)) (rest : List Turn),
    s.turns = .reset now cmp replies received :: rest →
    ∃ t, step s = .next t ∧ t.turns = rest ∧ t.offered = s.offered ∧
      (∀ r rs, replies = r :: rs → nextReply t = r ∧ t.replies.tail = rs) ∧
      (∀ b bs, received = b :: bs → b.length = s.cfg.readLen → nextReceived t = b ∧ t.received.tail = bs) ∧
      (replies = [] → nextReply t = Config.freeReply (s.draws + 1)) ∧
      (received = [] → nextReceived t = (List.range s.cfg.readLen).map (Config.freeByte (s.draws + 1)))
end

