-- ==== Sys2Proof/Laws/Decode.lean ====
section
/-!
SUPPORT. The fields of a word as numbers, the reserved masks as conditions on those numbers, and the fields of an encoded
command.
-/

namespace Sys2Proof

/-! ## Fields as numbers (R72 to R76) -/

theorem opField_toNat (w : Word) : (opField w).toNat = w.toNat / 2 ^ 28 := by
  have := w.isLt
  simp only [opField, BitVec.extractLsb'_toNat, Nat.shiftRight_eq_div_pow]
  omega

theorem tagField_toNat (w : Word) : (tagField w).toNat = w.toNat / 2 ^ 25 % 8 := by
  simp only [tagField, BitVec.extractLsb'_toNat, Nat.shiftRight_eq_div_pow]

theorem lvlField_toNat (w : Word) : (lvlField w).toNat = w.toNat / 2 ^ 24 % 16 := by
  simp only [lvlField, BitVec.extractLsb'_toNat, Nat.shiftRight_eq_div_pow]

theorem offField_toNat (w : Word) : (offField w).toNat = w.toNat % 2 ^ 24 := by
  simp only [offField, BitVec.extractLsb'_toNat, Nat.shiftRight_eq_div_pow, Nat.pow_zero, Nat.div_one]

/-! ## Reserved bits as numbers (R84) -/

/-- A mask of the n low bits is clear exactly when the n-bit remainder is 0. -/
theorem lowMask_eq_zero_iff (w : Word) (n : Nat) (h : n ≤ 32) :
    w &&& BitVec.ofNat 32 (2 ^ n - 1) = 0 ↔ w.toNat % 2 ^ n = 0 := by
  rw [← BitVec.toNat_inj, BitVec.toNat_and, BitVec.toNat_ofNat]
  have h1 : (2 ^ n - 1) % 2 ^ 32 = 2 ^ n - 1 := by
    have h2 := Nat.pow_le_pow_right (n := 2) (by omega) h
    have h3 := Nat.two_pow_pos n
    exact Nat.mod_eq_of_lt (by omega)
  rw [h1, Nat.and_two_pow_sub_one_eq_mod]
  simp

/-- The mask of format A is clear exactly when bits 27..24 are 0. -/
theorem armMask_eq_zero_iff (w : Word) : w &&& 0x0F000000#32 = 0 ↔ w.toNat / 2 ^ 24 % 16 = 0 := by
  rw [← BitVec.toNat_inj, BitVec.toNat_and]
  have e : w.toNat &&& (0x0F000000#32).toNat = (w.toNat / 2 ^ 24 % 16) * 2 ^ 24 := by
    have h1 : (0x0F000000#32).toNat = (2 ^ 4 - 1) <<< 24 := rfl
    rw [h1, ← Nat.shiftRight_eq_div_pow, ← Nat.shiftLeft_eq, show 16 = 2 ^ 4 from rfl, ← Nat.and_two_pow_sub_one_eq_mod]
    apply Nat.eq_of_testBit_eq
    intro j
    rw [Nat.testBit_and, Nat.testBit_shiftLeft, Nat.testBit_shiftLeft, Nat.testBit_and, Nat.testBit_shiftRight]
    by_cases hj : 24 ≤ j
    · simp [hj, Nat.add_sub_cancel' hj]
    · simp [hj]
  rw [e]
  simp

/-- The reserved bits of a format are clear (R84), as a condition on numbers (R73 to R76). -/
theorem reserved_clear_iff (f : Format) (w : Word) :
    w &&& reservedMask f = 0 ↔
      match f with
      | .formatN => w.toNat % 2 ^ 28 = 0
      | .formatT => w.toNat % 2 ^ 25 = 0
      | .formatL => w.toNat % 2 ^ 24 = 0
      | .formatA => w.toNat / 2 ^ 24 % 16 = 0 := by
  cases f
  · exact lowMask_eq_zero_iff w 28 (by decide)
  · exact lowMask_eq_zero_iff w 25 (by decide)
  · exact lowMask_eq_zero_iff w 24 (by decide)
  · exact armMask_eq_zero_iff w

/-! ## The encoded word as a number -/

theorem word_toNat (a : BitVec 4) (b : BitVec 28) : (a ++ b : BitVec 32).toNat = a.toNat * 2 ^ 28 + b.toNat := by
  have h : (a ++ b : BitVec 32).toNat = a.toNat <<< 28 ||| b.toNat := BitVec.toNat_append a b
  rw [h, ← Nat.shiftLeft_add_eq_or_of_lt b.isLt, Nat.shiftLeft_eq]

theorem encode_toNat (i : Instr) :
    (encode i).toNat = (opcodeBits (opcodeOfInstr i)).toNat * 2 ^ 28 + (operandBits i).toNat := word_toNat _ _

/-- Bits 27..0 of a command's word as a number (R73 to R76). -/
theorem operandBits_toNat (i : Instr) :
    (operandBits i).toNat =
      match i with
      | .signal e => (eventTag e).toNat * 2 ^ 25
      | .advance e => (eventTag e).toNat * 2 ^ 25
      | .arm off => off.toNat
      | .block lvl => lvl.toNat * 2 ^ 24
      | .unblock lvl => lvl.toNat * 2 ^ 24
      | .rdblk lvl => lvl.toNat * 2 ^ 24
      | _ => 0 := by
  cases i with
  | signal e => cases e <;> decide
  | advance e => cases e <;> decide
  | arm off =>
    have h : (0#4 ++ off : BitVec 28).toNat = (0#4).toNat <<< 24 ||| off.toNat := BitVec.toNat_append _ _
    simpa [operandBits] using h
  | block lvl => revert lvl; decide
  | unblock lvl => revert lvl; decide
  | rdblk lvl => revert lvl; decide
  | _ => rfl

theorem opField_encode (i : Instr) : opField (encode i) = opcodeBits (opcodeOfInstr i) := by
  apply BitVec.eq_of_toNat_eq
  have := (operandBits i).isLt
  rw [opField_toNat, encode_toNat]
  omega

@[simp] theorem opcodeOf_opcodeBits (op : Opcode) : opcodeOf (opcodeBits op) = some op := by cases op <;> rfl

/-- A 4-bit number that names an opcode is that opcode's own (R80). -/
theorem opcodeOf_eq_some {b : BitVec 4} {op : Opcode} (h : opcodeOf b = some op) : opcodeBits op = b := by
  revert b op
  have all : ∀ b : BitVec 4, ∀ op ∈ opcodeOf b, opcodeBits op = b := by decide
  exact fun {b op} h => all b op h

@[simp] theorem eventOfTag_eventTag (e : Event) : eventOfTag (eventTag e) = some e := by cases e <;> rfl

theorem eventOfTag_eq_some {t : BitVec 3} {e : Event} (h : eventOfTag t = some e) : eventTag e = t := by
  revert t e
  have all : ∀ t : BitVec 3, ∀ e ∈ eventOfTag t, eventTag e = t := by decide
  exact fun {t e} h => all t e h

/-! ## The decoder at a given opcode -/

theorem opcodeOf_opField {op : Opcode} {w : Word} (h : w.toNat / 2 ^ 28 = (opcodeBits op).toNat) :
    opcodeOf (opField w) = some op := by
  have e : opField w = opcodeBits op := BitVec.eq_of_toNat_eq ((opField_toNat w).trans h)
  rw [e, opcodeOf_opcodeBits]

/-- The decoder on a word with the opcode of `op` (R84). -/
theorem decode_at {op : Opcode} {w : Word} (h : w.toNat / 2 ^ 28 = (opcodeBits op).toNat) (p : Port) :
    decode p w =
      if mayIssue p op = false then .error .badPort
      else if w &&& reservedMask (formatOf op) ≠ 0 then .error .rsvBits
      else decodeOperands op w := by
  simp only [decode, opcodeOf_opField h]

/-- The tag of a word decides its event, 6 and 7 none (R77). -/
theorem eventOfTag_tagField (w : Word) :
    eventOfTag (tagField w) =
      match w.toNat / 2 ^ 25 % 8 with
      | 0 => some .idle
      | 1 => some .measureRequested
      | 2 => some .deferredTimerFired
      | 3 => some .transferDone
      | 4 => some .transferError
      | 5 => some .linkLost
      | _ => none := by
  rw [← tagField_toNat]
  rfl

end Sys2Proof
end

