-- ==== Sys2Proof/Laws/State.lean ====
section
/-!
SUPPORT. What each plain update of the state leaves in each field, one lemma per field per update.
-/

namespace Sys2Proof.Machine

/-! ## emit -/

@[simp] theorem emit_slot (e : OutEvent) (s : State) : (emit e s).slot = s.slot := rfl
@[simp] theorem emit_fsm (e : OutEvent) (s : State) : (emit e s).fsm = s.fsm := rfl
@[simp] theorem emit_now (e : OutEvent) (s : State) : (emit e s).now = s.now := rfl
@[simp] theorem emit_cmp (e : OutEvent) (s : State) : (emit e s).cmp = s.cmp := rfl
@[simp] theorem emit_armed (e : OutEvent) (s : State) : (emit e s).armed = s.armed := rfl
@[simp] theorem emit_cmpPend (e : OutEvent) (s : State) : (emit e s).cmpPend = s.cmpPend := rfl
@[simp] theorem emit_railEn (e : OutEvent) (s : State) : (emit e s).railEn = s.railEn := rfl
@[simp] theorem emit_blk (e : OutEvent) (s : State) : (emit e s).blk = s.blk := rfl
@[simp] theorem emit_sleeping (e : OutEvent) (s : State) : (emit e s).sleeping = s.sleeping := rfl
@[simp] theorem emit_mode (e : OutEvent) (s : State) : (emit e s).mode = s.mode := rfl
@[simp] theorem emit_wTrunc (e : OutEvent) (s : State) : (emit e s).wTrunc = s.wTrunc := rfl
@[simp] theorem emit_wInvalid (e : OutEvent) (s : State) : (emit e s).wInvalid = s.wInvalid := rfl
@[simp] theorem emit_wReject (e : OutEvent) (s : State) : (emit e s).wReject = s.wReject := rfl
@[simp] theorem emit_dropCnt (e : OutEvent) (s : State) : (emit e s).dropCnt = s.dropCnt := rfl
@[simp] theorem emit_fault (e : OutEvent) (s : State) : (emit e s).fault = s.fault := rfl
@[simp] theorem emit_fcause (e : OutEvent) (s : State) : (emit e s).fcause = s.fcause := rfl
@[simp] theorem emit_res (e : OutEvent) (s : State) : (emit e s).res = s.res := rfl
@[simp] theorem emit_out (e : OutEvent) (s : State) : (emit e s).out = s.out ++ [e] := rfl
@[simp] theorem emit_cfg (e : OutEvent) (s : State) : (emit e s).cfg = s.cfg := rfl
@[simp] theorem emit_port (e : OutEvent) (s : State) : (emit e s).port = s.port := rfl
@[simp] theorem emit_offered (e : OutEvent) (s : State) : (emit e s).offered = s.offered := rfl
@[simp] theorem emit_turns (e : OutEvent) (s : State) : (emit e s).turns = s.turns := rfl
@[simp] theorem emit_replies (e : OutEvent) (s : State) : (emit e s).replies = s.replies := rfl
@[simp] theorem emit_received (e : OutEvent) (s : State) : (emit e s).received = s.received := rfl
@[simp] theorem emit_draws (e : OutEvent) (s : State) : (emit e s).draws = s.draws := rfl

/-! ## raise -/

@[simp] theorem raise_slot (c : Cause) (s : State) : (raise c s).slot = s.slot := rfl
@[simp] theorem raise_fsm (c : Cause) (s : State) : (raise c s).fsm = s.fsm := rfl
@[simp] theorem raise_now (c : Cause) (s : State) : (raise c s).now = s.now := rfl
@[simp] theorem raise_cmp (c : Cause) (s : State) : (raise c s).cmp = s.cmp := rfl
@[simp] theorem raise_armed (c : Cause) (s : State) : (raise c s).armed = s.armed := rfl
@[simp] theorem raise_cmpPend (c : Cause) (s : State) : (raise c s).cmpPend = s.cmpPend := rfl
@[simp] theorem raise_railEn (c : Cause) (s : State) : (raise c s).railEn = s.railEn := rfl
@[simp] theorem raise_blk (c : Cause) (s : State) : (raise c s).blk = s.blk := rfl
@[simp] theorem raise_sleeping (c : Cause) (s : State) : (raise c s).sleeping = s.sleeping := rfl
@[simp] theorem raise_mode (c : Cause) (s : State) : (raise c s).mode = s.mode := rfl
@[simp] theorem raise_wTrunc (c : Cause) (s : State) : (raise c s).wTrunc = s.wTrunc := rfl
@[simp] theorem raise_wInvalid (c : Cause) (s : State) : (raise c s).wInvalid = s.wInvalid := rfl
@[simp] theorem raise_wReject (c : Cause) (s : State) : (raise c s).wReject = s.wReject := rfl
@[simp] theorem raise_dropCnt (c : Cause) (s : State) : (raise c s).dropCnt = s.dropCnt := rfl
@[simp] theorem raise_fault (c : Cause) (s : State) : (raise c s).fault = true := rfl
@[simp] theorem raise_fcause (c : Cause) (s : State) : (raise c s).fcause = causeCode c := rfl
@[simp] theorem raise_res (c : Cause) (s : State) : (raise c s).res = s.res := rfl
@[simp] theorem raise_out (c : Cause) (s : State) : (raise c s).out = s.out := rfl
@[simp] theorem raise_cfg (c : Cause) (s : State) : (raise c s).cfg = s.cfg := rfl
@[simp] theorem raise_port (c : Cause) (s : State) : (raise c s).port = s.port := rfl
@[simp] theorem raise_offered (c : Cause) (s : State) : (raise c s).offered = s.offered := rfl
@[simp] theorem raise_turns (c : Cause) (s : State) : (raise c s).turns = s.turns := rfl
@[simp] theorem raise_replies (c : Cause) (s : State) : (raise c s).replies = s.replies := rfl
@[simp] theorem raise_received (c : Cause) (s : State) : (raise c s).received = s.received := rfl
@[simp] theorem raise_draws (c : Cause) (s : State) : (raise c s).draws = s.draws := rfl

/-! ## clearSlot -/

@[simp] theorem clearSlot_slot (s : State) : (clearSlot s).slot = .idle := rfl
@[simp] theorem clearSlot_fsm (s : State) : (clearSlot s).fsm = s.fsm := rfl
@[simp] theorem clearSlot_now (s : State) : (clearSlot s).now = s.now := rfl
@[simp] theorem clearSlot_cmp (s : State) : (clearSlot s).cmp = s.cmp := rfl
@[simp] theorem clearSlot_armed (s : State) : (clearSlot s).armed = s.armed := rfl
@[simp] theorem clearSlot_cmpPend (s : State) : (clearSlot s).cmpPend = s.cmpPend := rfl
@[simp] theorem clearSlot_railEn (s : State) : (clearSlot s).railEn = s.railEn := rfl
@[simp] theorem clearSlot_blk (s : State) : (clearSlot s).blk = s.blk := rfl
@[simp] theorem clearSlot_sleeping (s : State) : (clearSlot s).sleeping = s.sleeping := rfl
@[simp] theorem clearSlot_mode (s : State) : (clearSlot s).mode = s.mode := rfl
@[simp] theorem clearSlot_wTrunc (s : State) : (clearSlot s).wTrunc = s.wTrunc := rfl
@[simp] theorem clearSlot_wInvalid (s : State) : (clearSlot s).wInvalid = s.wInvalid := rfl
@[simp] theorem clearSlot_wReject (s : State) : (clearSlot s).wReject = s.wReject := rfl
@[simp] theorem clearSlot_dropCnt (s : State) : (clearSlot s).dropCnt = s.dropCnt := rfl
@[simp] theorem clearSlot_fault (s : State) : (clearSlot s).fault = s.fault := rfl
@[simp] theorem clearSlot_fcause (s : State) : (clearSlot s).fcause = s.fcause := rfl
@[simp] theorem clearSlot_res (s : State) : (clearSlot s).res = s.res := rfl
@[simp] theorem clearSlot_out (s : State) : (clearSlot s).out = s.out := rfl
@[simp] theorem clearSlot_cfg (s : State) : (clearSlot s).cfg = s.cfg := rfl
@[simp] theorem clearSlot_port (s : State) : (clearSlot s).port = s.port := rfl
@[simp] theorem clearSlot_offered (s : State) : (clearSlot s).offered = s.offered := rfl
@[simp] theorem clearSlot_turns (s : State) : (clearSlot s).turns = s.turns := rfl
@[simp] theorem clearSlot_replies (s : State) : (clearSlot s).replies = s.replies := rfl
@[simp] theorem clearSlot_received (s : State) : (clearSlot s).received = s.received := rfl
@[simp] theorem clearSlot_draws (s : State) : (clearSlot s).draws = s.draws := rfl

/-! ## enterSleep -/

@[simp] theorem enterSleep_slot (m : Nat) (s : State) : (enterSleep m s).slot = s.slot := rfl
@[simp] theorem enterSleep_fsm (m : Nat) (s : State) : (enterSleep m s).fsm = s.fsm := rfl
@[simp] theorem enterSleep_now (m : Nat) (s : State) : (enterSleep m s).now = s.now := rfl
@[simp] theorem enterSleep_cmp (m : Nat) (s : State) : (enterSleep m s).cmp = s.cmp := rfl
@[simp] theorem enterSleep_armed (m : Nat) (s : State) : (enterSleep m s).armed = s.armed := rfl
@[simp] theorem enterSleep_cmpPend (m : Nat) (s : State) : (enterSleep m s).cmpPend = s.cmpPend := rfl
@[simp] theorem enterSleep_railEn (m : Nat) (s : State) : (enterSleep m s).railEn = s.railEn := rfl
@[simp] theorem enterSleep_blk (m : Nat) (s : State) : (enterSleep m s).blk = s.blk := rfl
@[simp] theorem enterSleep_sleeping (m : Nat) (s : State) : (enterSleep m s).sleeping = true := rfl
@[simp] theorem enterSleep_mode (m : Nat) (s : State) : (enterSleep m s).mode = BitVec.ofNat 4 m := rfl
@[simp] theorem enterSleep_wTrunc (m : Nat) (s : State) : (enterSleep m s).wTrunc = s.wTrunc := rfl
@[simp] theorem enterSleep_wInvalid (m : Nat) (s : State) : (enterSleep m s).wInvalid = s.wInvalid := rfl
@[simp] theorem enterSleep_wReject (m : Nat) (s : State) : (enterSleep m s).wReject = s.wReject := rfl
@[simp] theorem enterSleep_dropCnt (m : Nat) (s : State) : (enterSleep m s).dropCnt = s.dropCnt := rfl
@[simp] theorem enterSleep_fault (m : Nat) (s : State) : (enterSleep m s).fault = s.fault := rfl
@[simp] theorem enterSleep_fcause (m : Nat) (s : State) : (enterSleep m s).fcause = s.fcause := rfl
@[simp] theorem enterSleep_res (m : Nat) (s : State) : (enterSleep m s).res = s.res := rfl
@[simp] theorem enterSleep_out (m : Nat) (s : State) : (enterSleep m s).out = s.out ++ [.sleep m] := rfl
@[simp] theorem enterSleep_cfg (m : Nat) (s : State) : (enterSleep m s).cfg = s.cfg := rfl
@[simp] theorem enterSleep_port (m : Nat) (s : State) : (enterSleep m s).port = s.port := rfl
@[simp] theorem enterSleep_offered (m : Nat) (s : State) : (enterSleep m s).offered = s.offered := rfl
@[simp] theorem enterSleep_turns (m : Nat) (s : State) : (enterSleep m s).turns = s.turns := rfl
@[simp] theorem enterSleep_replies (m : Nat) (s : State) : (enterSleep m s).replies = s.replies := rfl
@[simp] theorem enterSleep_received (m : Nat) (s : State) : (enterSleep m s).received = s.received := rfl
@[simp] theorem enterSleep_draws (m : Nat) (s : State) : (enterSleep m s).draws = s.draws := rfl

/-! ## wake -/

@[simp] theorem wake_slot (s : State) : (wake s).slot = s.slot := rfl
@[simp] theorem wake_fsm (s : State) : (wake s).fsm = s.fsm := rfl
@[simp] theorem wake_now (s : State) : (wake s).now = s.now := rfl
@[simp] theorem wake_cmp (s : State) : (wake s).cmp = s.cmp := rfl
@[simp] theorem wake_armed (s : State) : (wake s).armed = s.armed := rfl
@[simp] theorem wake_cmpPend (s : State) : (wake s).cmpPend = s.cmpPend := rfl
@[simp] theorem wake_railEn (s : State) : (wake s).railEn = s.railEn := rfl
@[simp] theorem wake_blk (s : State) : (wake s).blk = s.blk := rfl
@[simp] theorem wake_sleeping (s : State) : (wake s).sleeping = false := rfl
@[simp] theorem wake_mode (s : State) : (wake s).mode = 0 := rfl
@[simp] theorem wake_wTrunc (s : State) : (wake s).wTrunc = s.wTrunc := rfl
@[simp] theorem wake_wInvalid (s : State) : (wake s).wInvalid = s.wInvalid := rfl
@[simp] theorem wake_wReject (s : State) : (wake s).wReject = s.wReject := rfl
@[simp] theorem wake_dropCnt (s : State) : (wake s).dropCnt = s.dropCnt := rfl
@[simp] theorem wake_fault (s : State) : (wake s).fault = s.fault := rfl
@[simp] theorem wake_fcause (s : State) : (wake s).fcause = s.fcause := rfl
@[simp] theorem wake_res (s : State) : (wake s).res = s.res := rfl
@[simp] theorem wake_out (s : State) : (wake s).out = s.out ++ [.wake] := rfl
@[simp] theorem wake_cfg (s : State) : (wake s).cfg = s.cfg := rfl
@[simp] theorem wake_port (s : State) : (wake s).port = s.port := rfl
@[simp] theorem wake_offered (s : State) : (wake s).offered = s.offered := rfl
@[simp] theorem wake_turns (s : State) : (wake s).turns = s.turns := rfl
@[simp] theorem wake_replies (s : State) : (wake s).replies = s.replies := rfl
@[simp] theorem wake_received (s : State) : (wake s).received = s.received := rfl
@[simp] theorem wake_draws (s : State) : (wake s).draws = s.draws := rfl

/-! ## setBlk -/

@[simp] theorem setBlk_slot (l v : Nat) (s : State) : (setBlk l v s).slot = s.slot := rfl
@[simp] theorem setBlk_fsm (l v : Nat) (s : State) : (setBlk l v s).fsm = s.fsm := rfl
@[simp] theorem setBlk_now (l v : Nat) (s : State) : (setBlk l v s).now = s.now := rfl
@[simp] theorem setBlk_cmp (l v : Nat) (s : State) : (setBlk l v s).cmp = s.cmp := rfl
@[simp] theorem setBlk_armed (l v : Nat) (s : State) : (setBlk l v s).armed = s.armed := rfl
@[simp] theorem setBlk_cmpPend (l v : Nat) (s : State) : (setBlk l v s).cmpPend = s.cmpPend := rfl
@[simp] theorem setBlk_railEn (l v : Nat) (s : State) : (setBlk l v s).railEn = s.railEn := rfl
@[simp] theorem setBlk_blk (l v : Nat) (s : State) : (setBlk l v s).blk = s.blk.set (l - 1) v := rfl
@[simp] theorem setBlk_sleeping (l v : Nat) (s : State) : (setBlk l v s).sleeping = s.sleeping := rfl
@[simp] theorem setBlk_mode (l v : Nat) (s : State) : (setBlk l v s).mode = s.mode := rfl
@[simp] theorem setBlk_wTrunc (l v : Nat) (s : State) : (setBlk l v s).wTrunc = s.wTrunc := rfl
@[simp] theorem setBlk_wInvalid (l v : Nat) (s : State) : (setBlk l v s).wInvalid = s.wInvalid := rfl
@[simp] theorem setBlk_wReject (l v : Nat) (s : State) : (setBlk l v s).wReject = s.wReject := rfl
@[simp] theorem setBlk_dropCnt (l v : Nat) (s : State) : (setBlk l v s).dropCnt = s.dropCnt := rfl
@[simp] theorem setBlk_fault (l v : Nat) (s : State) : (setBlk l v s).fault = s.fault := rfl
@[simp] theorem setBlk_fcause (l v : Nat) (s : State) : (setBlk l v s).fcause = s.fcause := rfl
@[simp] theorem setBlk_res (l v : Nat) (s : State) : (setBlk l v s).res = s.res := rfl
@[simp] theorem setBlk_out (l v : Nat) (s : State) : (setBlk l v s).out = s.out := rfl
@[simp] theorem setBlk_cfg (l v : Nat) (s : State) : (setBlk l v s).cfg = s.cfg := rfl
@[simp] theorem setBlk_port (l v : Nat) (s : State) : (setBlk l v s).port = s.port := rfl
@[simp] theorem setBlk_offered (l v : Nat) (s : State) : (setBlk l v s).offered = s.offered := rfl
@[simp] theorem setBlk_turns (l v : Nat) (s : State) : (setBlk l v s).turns = s.turns := rfl
@[simp] theorem setBlk_replies (l v : Nat) (s : State) : (setBlk l v s).replies = s.replies := rfl
@[simp] theorem setBlk_received (l v : Nat) (s : State) : (setBlk l v s).received = s.received := rfl
@[simp] theorem setBlk_draws (l v : Nat) (s : State) : (setBlk l v s).draws = s.draws := rfl

/-! ## railOn -/

@[simp] theorem railOn_slot (s : State) : (railOn s).slot = s.slot := rfl
@[simp] theorem railOn_fsm (s : State) : (railOn s).fsm = s.fsm := rfl
@[simp] theorem railOn_now (s : State) : (railOn s).now = s.now := rfl
@[simp] theorem railOn_cmp (s : State) : (railOn s).cmp = s.cmp := rfl
@[simp] theorem railOn_armed (s : State) : (railOn s).armed = s.armed := rfl
@[simp] theorem railOn_cmpPend (s : State) : (railOn s).cmpPend = s.cmpPend := rfl
@[simp] theorem railOn_railEn (s : State) : (railOn s).railEn = true := rfl
@[simp] theorem railOn_blk (s : State) : (railOn s).blk = s.blk := rfl
@[simp] theorem railOn_sleeping (s : State) : (railOn s).sleeping = s.sleeping := rfl
@[simp] theorem railOn_mode (s : State) : (railOn s).mode = s.mode := rfl
@[simp] theorem railOn_wTrunc (s : State) : (railOn s).wTrunc = s.wTrunc := rfl
@[simp] theorem railOn_wInvalid (s : State) : (railOn s).wInvalid = s.wInvalid := rfl
@[simp] theorem railOn_wReject (s : State) : (railOn s).wReject = s.wReject := rfl
@[simp] theorem railOn_dropCnt (s : State) : (railOn s).dropCnt = s.dropCnt := rfl
@[simp] theorem railOn_fault (s : State) : (railOn s).fault = s.fault := rfl
@[simp] theorem railOn_fcause (s : State) : (railOn s).fcause = s.fcause := rfl
@[simp] theorem railOn_res (s : State) : (railOn s).res = s.res := rfl
@[simp] theorem railOn_out (s : State) : (railOn s).out = s.out ++ [.railOn] := rfl
@[simp] theorem railOn_cfg (s : State) : (railOn s).cfg = s.cfg := rfl
@[simp] theorem railOn_port (s : State) : (railOn s).port = s.port := rfl
@[simp] theorem railOn_offered (s : State) : (railOn s).offered = s.offered := rfl
@[simp] theorem railOn_turns (s : State) : (railOn s).turns = s.turns := rfl
@[simp] theorem railOn_replies (s : State) : (railOn s).replies = s.replies := rfl
@[simp] theorem railOn_received (s : State) : (railOn s).received = s.received := rfl
@[simp] theorem railOn_draws (s : State) : (railOn s).draws = s.draws := rfl

/-! ## railOff -/

@[simp] theorem railOff_slot (s : State) : (railOff s).slot = s.slot := rfl
@[simp] theorem railOff_fsm (s : State) : (railOff s).fsm = s.fsm := rfl
@[simp] theorem railOff_now (s : State) : (railOff s).now = s.now := rfl
@[simp] theorem railOff_cmp (s : State) : (railOff s).cmp = s.cmp := rfl
@[simp] theorem railOff_armed (s : State) : (railOff s).armed = s.armed := rfl
@[simp] theorem railOff_cmpPend (s : State) : (railOff s).cmpPend = s.cmpPend := rfl
@[simp] theorem railOff_railEn (s : State) : (railOff s).railEn = false := rfl
@[simp] theorem railOff_blk (s : State) : (railOff s).blk = s.blk := rfl
@[simp] theorem railOff_sleeping (s : State) : (railOff s).sleeping = s.sleeping := rfl
@[simp] theorem railOff_mode (s : State) : (railOff s).mode = s.mode := rfl
@[simp] theorem railOff_wTrunc (s : State) : (railOff s).wTrunc = s.wTrunc := rfl
@[simp] theorem railOff_wInvalid (s : State) : (railOff s).wInvalid = s.wInvalid := rfl
@[simp] theorem railOff_wReject (s : State) : (railOff s).wReject = s.wReject := rfl
@[simp] theorem railOff_dropCnt (s : State) : (railOff s).dropCnt = s.dropCnt := rfl
@[simp] theorem railOff_fault (s : State) : (railOff s).fault = s.fault := rfl
@[simp] theorem railOff_fcause (s : State) : (railOff s).fcause = s.fcause := rfl
@[simp] theorem railOff_res (s : State) : (railOff s).res = s.res := rfl
@[simp] theorem railOff_out (s : State) : (railOff s).out = s.out ++ [.railOff] := rfl
@[simp] theorem railOff_cfg (s : State) : (railOff s).cfg = s.cfg := rfl
@[simp] theorem railOff_port (s : State) : (railOff s).port = s.port := rfl
@[simp] theorem railOff_offered (s : State) : (railOff s).offered = s.offered := rfl
@[simp] theorem railOff_turns (s : State) : (railOff s).turns = s.turns := rfl
@[simp] theorem railOff_replies (s : State) : (railOff s).replies = s.replies := rfl
@[simp] theorem railOff_received (s : State) : (railOff s).received = s.received := rfl
@[simp] theorem railOff_draws (s : State) : (railOff s).draws = s.draws := rfl

/-! ## logInvalid -/

@[simp] theorem logInvalid_slot (q : SeqState) (e : Event) (s : State) : (logInvalid q e s).slot = s.slot := rfl
@[simp] theorem logInvalid_fsm (q : SeqState) (e : Event) (s : State) : (logInvalid q e s).fsm = s.fsm := rfl
@[simp] theorem logInvalid_now (q : SeqState) (e : Event) (s : State) : (logInvalid q e s).now = s.now := rfl
@[simp] theorem logInvalid_cmp (q : SeqState) (e : Event) (s : State) : (logInvalid q e s).cmp = s.cmp := rfl
@[simp] theorem logInvalid_armed (q : SeqState) (e : Event) (s : State) : (logInvalid q e s).armed = s.armed := rfl
@[simp] theorem logInvalid_cmpPend (q : SeqState) (e : Event) (s : State) : (logInvalid q e s).cmpPend = s.cmpPend := rfl
@[simp] theorem logInvalid_railEn (q : SeqState) (e : Event) (s : State) : (logInvalid q e s).railEn = s.railEn := rfl
@[simp] theorem logInvalid_blk (q : SeqState) (e : Event) (s : State) : (logInvalid q e s).blk = s.blk := rfl
@[simp] theorem logInvalid_sleeping (q : SeqState) (e : Event) (s : State) : (logInvalid q e s).sleeping = s.sleeping := rfl
@[simp] theorem logInvalid_mode (q : SeqState) (e : Event) (s : State) : (logInvalid q e s).mode = s.mode := rfl
@[simp] theorem logInvalid_wTrunc (q : SeqState) (e : Event) (s : State) : (logInvalid q e s).wTrunc = s.wTrunc := rfl
@[simp] theorem logInvalid_wInvalid (q : SeqState) (e : Event) (s : State) : (logInvalid q e s).wInvalid = true := rfl
@[simp] theorem logInvalid_wReject (q : SeqState) (e : Event) (s : State) : (logInvalid q e s).wReject = s.wReject := rfl
@[simp] theorem logInvalid_dropCnt (q : SeqState) (e : Event) (s : State) : (logInvalid q e s).dropCnt = s.dropCnt := rfl
@[simp] theorem logInvalid_fault (q : SeqState) (e : Event) (s : State) : (logInvalid q e s).fault = s.fault := rfl
@[simp] theorem logInvalid_fcause (q : SeqState) (e : Event) (s : State) : (logInvalid q e s).fcause = s.fcause := rfl
@[simp] theorem logInvalid_res (q : SeqState) (e : Event) (s : State) : (logInvalid q e s).res = s.res := rfl
@[simp] theorem logInvalid_out (q : SeqState) (e : Event) (s : State) : (logInvalid q e s).out = s.out ++ [.logInvalid q e] := rfl
@[simp] theorem logInvalid_cfg (q : SeqState) (e : Event) (s : State) : (logInvalid q e s).cfg = s.cfg := rfl
@[simp] theorem logInvalid_port (q : SeqState) (e : Event) (s : State) : (logInvalid q e s).port = s.port := rfl
@[simp] theorem logInvalid_offered (q : SeqState) (e : Event) (s : State) : (logInvalid q e s).offered = s.offered := rfl
@[simp] theorem logInvalid_turns (q : SeqState) (e : Event) (s : State) : (logInvalid q e s).turns = s.turns := rfl
@[simp] theorem logInvalid_replies (q : SeqState) (e : Event) (s : State) : (logInvalid q e s).replies = s.replies := rfl
@[simp] theorem logInvalid_received (q : SeqState) (e : Event) (s : State) : (logInvalid q e s).received = s.received := rfl
@[simp] theorem logInvalid_draws (q : SeqState) (e : Event) (s : State) : (logInvalid q e s).draws = s.draws := rfl

/-! ## logReject -/

@[simp] theorem logReject_slot (q : SeqState) (s : State) : (logReject q s).slot = s.slot := rfl
@[simp] theorem logReject_fsm (q : SeqState) (s : State) : (logReject q s).fsm = s.fsm := rfl
@[simp] theorem logReject_now (q : SeqState) (s : State) : (logReject q s).now = s.now := rfl
@[simp] theorem logReject_cmp (q : SeqState) (s : State) : (logReject q s).cmp = s.cmp := rfl
@[simp] theorem logReject_armed (q : SeqState) (s : State) : (logReject q s).armed = s.armed := rfl
@[simp] theorem logReject_cmpPend (q : SeqState) (s : State) : (logReject q s).cmpPend = s.cmpPend := rfl
@[simp] theorem logReject_railEn (q : SeqState) (s : State) : (logReject q s).railEn = s.railEn := rfl
@[simp] theorem logReject_blk (q : SeqState) (s : State) : (logReject q s).blk = s.blk := rfl
@[simp] theorem logReject_sleeping (q : SeqState) (s : State) : (logReject q s).sleeping = s.sleeping := rfl
@[simp] theorem logReject_mode (q : SeqState) (s : State) : (logReject q s).mode = s.mode := rfl
@[simp] theorem logReject_wTrunc (q : SeqState) (s : State) : (logReject q s).wTrunc = s.wTrunc := rfl
@[simp] theorem logReject_wInvalid (q : SeqState) (s : State) : (logReject q s).wInvalid = s.wInvalid := rfl
@[simp] theorem logReject_wReject (q : SeqState) (s : State) : (logReject q s).wReject = true := rfl
@[simp] theorem logReject_dropCnt (q : SeqState) (s : State) : (logReject q s).dropCnt = s.dropCnt := rfl
@[simp] theorem logReject_fault (q : SeqState) (s : State) : (logReject q s).fault = s.fault := rfl
@[simp] theorem logReject_fcause (q : SeqState) (s : State) : (logReject q s).fcause = s.fcause := rfl
@[simp] theorem logReject_res (q : SeqState) (s : State) : (logReject q s).res = s.res := rfl
@[simp] theorem logReject_out (q : SeqState) (s : State) : (logReject q s).out = s.out ++ [.logReject q] := rfl
@[simp] theorem logReject_cfg (q : SeqState) (s : State) : (logReject q s).cfg = s.cfg := rfl
@[simp] theorem logReject_port (q : SeqState) (s : State) : (logReject q s).port = s.port := rfl
@[simp] theorem logReject_offered (q : SeqState) (s : State) : (logReject q s).offered = s.offered := rfl
@[simp] theorem logReject_turns (q : SeqState) (s : State) : (logReject q s).turns = s.turns := rfl
@[simp] theorem logReject_replies (q : SeqState) (s : State) : (logReject q s).replies = s.replies := rfl
@[simp] theorem logReject_received (q : SeqState) (s : State) : (logReject q s).received = s.received := rfl
@[simp] theorem logReject_draws (q : SeqState) (s : State) : (logReject q s).draws = s.draws := rfl

/-! ## afterReply -/

@[simp] theorem afterReply_slot (s : State) : (afterReply s).slot = s.slot := rfl
@[simp] theorem afterReply_fsm (s : State) : (afterReply s).fsm = s.fsm := rfl
@[simp] theorem afterReply_now (s : State) : (afterReply s).now = s.now := rfl
@[simp] theorem afterReply_cmp (s : State) : (afterReply s).cmp = s.cmp := rfl
@[simp] theorem afterReply_armed (s : State) : (afterReply s).armed = s.armed := rfl
@[simp] theorem afterReply_cmpPend (s : State) : (afterReply s).cmpPend = s.cmpPend := rfl
@[simp] theorem afterReply_railEn (s : State) : (afterReply s).railEn = s.railEn := rfl
@[simp] theorem afterReply_blk (s : State) : (afterReply s).blk = s.blk := rfl
@[simp] theorem afterReply_sleeping (s : State) : (afterReply s).sleeping = s.sleeping := rfl
@[simp] theorem afterReply_mode (s : State) : (afterReply s).mode = s.mode := rfl
@[simp] theorem afterReply_wTrunc (s : State) : (afterReply s).wTrunc = s.wTrunc := rfl
@[simp] theorem afterReply_wInvalid (s : State) : (afterReply s).wInvalid = s.wInvalid := rfl
@[simp] theorem afterReply_wReject (s : State) : (afterReply s).wReject = s.wReject := rfl
@[simp] theorem afterReply_dropCnt (s : State) : (afterReply s).dropCnt = s.dropCnt := rfl
@[simp] theorem afterReply_fault (s : State) : (afterReply s).fault = s.fault := rfl
@[simp] theorem afterReply_fcause (s : State) : (afterReply s).fcause = s.fcause := rfl
@[simp] theorem afterReply_res (s : State) : (afterReply s).res = s.res := rfl
@[simp] theorem afterReply_out (s : State) : (afterReply s).out = s.out := rfl
@[simp] theorem afterReply_cfg (s : State) : (afterReply s).cfg = s.cfg := rfl
@[simp] theorem afterReply_port (s : State) : (afterReply s).port = s.port := rfl
@[simp] theorem afterReply_offered (s : State) : (afterReply s).offered = s.offered := rfl
@[simp] theorem afterReply_turns (s : State) : (afterReply s).turns = s.turns := rfl
@[simp] theorem afterReply_replies (s : State) : (afterReply s).replies = s.replies.tail := rfl
@[simp] theorem afterReply_received (s : State) : (afterReply s).received = s.received := rfl
@[simp] theorem afterReply_draws (s : State) : (afterReply s).draws = s.draws + 1 := rfl

/-! ## afterReceived -/

@[simp] theorem afterReceived_slot (s : State) : (afterReceived s).slot = s.slot := rfl
@[simp] theorem afterReceived_fsm (s : State) : (afterReceived s).fsm = s.fsm := rfl
@[simp] theorem afterReceived_now (s : State) : (afterReceived s).now = s.now := rfl
@[simp] theorem afterReceived_cmp (s : State) : (afterReceived s).cmp = s.cmp := rfl
@[simp] theorem afterReceived_armed (s : State) : (afterReceived s).armed = s.armed := rfl
@[simp] theorem afterReceived_cmpPend (s : State) : (afterReceived s).cmpPend = s.cmpPend := rfl
@[simp] theorem afterReceived_railEn (s : State) : (afterReceived s).railEn = s.railEn := rfl
@[simp] theorem afterReceived_blk (s : State) : (afterReceived s).blk = s.blk := rfl
@[simp] theorem afterReceived_sleeping (s : State) : (afterReceived s).sleeping = s.sleeping := rfl
@[simp] theorem afterReceived_mode (s : State) : (afterReceived s).mode = s.mode := rfl
@[simp] theorem afterReceived_wTrunc (s : State) : (afterReceived s).wTrunc = s.wTrunc := rfl
@[simp] theorem afterReceived_wInvalid (s : State) : (afterReceived s).wInvalid = s.wInvalid := rfl
@[simp] theorem afterReceived_wReject (s : State) : (afterReceived s).wReject = s.wReject := rfl
@[simp] theorem afterReceived_dropCnt (s : State) : (afterReceived s).dropCnt = s.dropCnt := rfl
@[simp] theorem afterReceived_fault (s : State) : (afterReceived s).fault = s.fault := rfl
@[simp] theorem afterReceived_fcause (s : State) : (afterReceived s).fcause = s.fcause := rfl
@[simp] theorem afterReceived_res (s : State) : (afterReceived s).res = s.res := rfl
@[simp] theorem afterReceived_out (s : State) : (afterReceived s).out = s.out := rfl
@[simp] theorem afterReceived_cfg (s : State) : (afterReceived s).cfg = s.cfg := rfl
@[simp] theorem afterReceived_port (s : State) : (afterReceived s).port = s.port := rfl
@[simp] theorem afterReceived_offered (s : State) : (afterReceived s).offered = s.offered := rfl
@[simp] theorem afterReceived_turns (s : State) : (afterReceived s).turns = s.turns := rfl
@[simp] theorem afterReceived_replies (s : State) : (afterReceived s).replies = s.replies := rfl
@[simp] theorem afterReceived_received (s : State) : (afterReceived s).received = s.received.tail := rfl
@[simp] theorem afterReceived_draws (s : State) : (afterReceived s).draws = s.draws + 1 := rfl

/-! ## issue -/

@[simp] theorem issue_slot (p : Port) (s : State) : (issue p s).slot = s.slot := rfl
@[simp] theorem issue_fsm (p : Port) (s : State) : (issue p s).fsm = s.fsm := rfl
@[simp] theorem issue_now (p : Port) (s : State) : (issue p s).now = s.now := rfl
@[simp] theorem issue_cmp (p : Port) (s : State) : (issue p s).cmp = s.cmp := rfl
@[simp] theorem issue_armed (p : Port) (s : State) : (issue p s).armed = s.armed := rfl
@[simp] theorem issue_cmpPend (p : Port) (s : State) : (issue p s).cmpPend = s.cmpPend := rfl
@[simp] theorem issue_railEn (p : Port) (s : State) : (issue p s).railEn = s.railEn := rfl
@[simp] theorem issue_blk (p : Port) (s : State) : (issue p s).blk = s.blk := rfl
@[simp] theorem issue_sleeping (p : Port) (s : State) : (issue p s).sleeping = s.sleeping := rfl
@[simp] theorem issue_mode (p : Port) (s : State) : (issue p s).mode = s.mode := rfl
@[simp] theorem issue_wTrunc (p : Port) (s : State) : (issue p s).wTrunc = s.wTrunc := rfl
@[simp] theorem issue_wInvalid (p : Port) (s : State) : (issue p s).wInvalid = s.wInvalid := rfl
@[simp] theorem issue_wReject (p : Port) (s : State) : (issue p s).wReject = s.wReject := rfl
@[simp] theorem issue_dropCnt (p : Port) (s : State) : (issue p s).dropCnt = s.dropCnt := rfl
@[simp] theorem issue_fault (p : Port) (s : State) : (issue p s).fault = s.fault := rfl
@[simp] theorem issue_fcause (p : Port) (s : State) : (issue p s).fcause = s.fcause := rfl
@[simp] theorem issue_res (p : Port) (s : State) : (issue p s).res = s.res := rfl
@[simp] theorem issue_out (p : Port) (s : State) : (issue p s).out = s.out := rfl
@[simp] theorem issue_cfg (p : Port) (s : State) : (issue p s).cfg = s.cfg := rfl
@[simp] theorem issue_port (p : Port) (s : State) : (issue p s).port = p := rfl
@[simp] theorem issue_offered (p : Port) (s : State) : (issue p s).offered = wordIssued p s.offered := rfl
@[simp] theorem issue_turns (p : Port) (s : State) : (issue p s).turns = s.turns := rfl
@[simp] theorem issue_replies (p : Port) (s : State) : (issue p s).replies = s.replies := rfl
@[simp] theorem issue_received (p : Port) (s : State) : (issue p s).received = s.received := rfl
@[simp] theorem issue_draws (p : Port) (s : State) : (issue p s).draws = s.draws := rfl

/-! ## applyReset -/

section

variable (now cmp : Nat) (rs : List BusReply) (bs : List (List Byte)) (s : State)

@[simp] theorem applyReset_slot : (applyReset now cmp rs bs s).slot = .idle := rfl
@[simp] theorem applyReset_fsm : (applyReset now cmp rs bs s).fsm = .sensorOff := rfl
@[simp] theorem applyReset_now : (applyReset now cmp rs bs s).now = now % 2 ^ s.cfg.clkW := rfl
@[simp] theorem applyReset_cmp : (applyReset now cmp rs bs s).cmp = cmp % 2 ^ s.cfg.clkW := rfl
@[simp] theorem applyReset_armed : (applyReset now cmp rs bs s).armed = false := rfl
@[simp] theorem applyReset_cmpPend : (applyReset now cmp rs bs s).cmpPend = false := rfl
@[simp] theorem applyReset_railEn : (applyReset now cmp rs bs s).railEn = false := rfl
@[simp] theorem applyReset_blk : (applyReset now cmp rs bs s).blk = List.replicate (s.cfg.m - 1) 0 := rfl
@[simp] theorem applyReset_sleeping : (applyReset now cmp rs bs s).sleeping = false := rfl
@[simp] theorem applyReset_mode : (applyReset now cmp rs bs s).mode = 0 := rfl
@[simp] theorem applyReset_wTrunc : (applyReset now cmp rs bs s).wTrunc = false := rfl
@[simp] theorem applyReset_wInvalid : (applyReset now cmp rs bs s).wInvalid = false := rfl
@[simp] theorem applyReset_wReject : (applyReset now cmp rs bs s).wReject = false := rfl
@[simp] theorem applyReset_dropCnt : (applyReset now cmp rs bs s).dropCnt = 0 := rfl
@[simp] theorem applyReset_fault : (applyReset now cmp rs bs s).fault = false := rfl
@[simp] theorem applyReset_fcause : (applyReset now cmp rs bs s).fcause = 0 := rfl
@[simp] theorem applyReset_res : (applyReset now cmp rs bs s).res = 0 := rfl
@[simp] theorem applyReset_out : (applyReset now cmp rs bs s).out = [] := rfl
@[simp] theorem applyReset_cfg : (applyReset now cmp rs bs s).cfg = s.cfg := rfl
@[simp] theorem applyReset_port : (applyReset now cmp rs bs s).port = s.port := rfl
@[simp] theorem applyReset_offered : (applyReset now cmp rs bs s).offered = s.offered := rfl
@[simp] theorem applyReset_turns : (applyReset now cmp rs bs s).turns = s.turns := rfl
@[simp] theorem applyReset_replies : (applyReset now cmp rs bs s).replies = rs := rfl
@[simp] theorem applyReset_received : (applyReset now cmp rs bs s).received = bs := rfl
@[simp] theorem applyReset_draws : (applyReset now cmp rs bs s).draws = s.draws + 1 := rfl

end

end Sys2Proof.Machine
end

