-- ==== Sys2Proof/Laws/Ops.lean ====
section
/-!
SUPPORT. One lemma or a few for each shared operation, saying once everything it can do.
-/

namespace Sys2Proof.Machine

/-! ## Ends of steps -/

@[simp] theorem finish_ok (s t : State) : finish s (.ok t) = .next t := rfl

@[simp] theorem finish_error (s : State) (c : Cause) : finish s (.error c) = .next (raise c s) := rfl

/-- A step that may raise a fault always answers a next state: its own, or fault entry. -/
theorem finish_next_iff {s t : State} {r : Except Cause State} :
    finish s r = .next t ↔ r = .ok t ∨ ∃ c, r = .error c ∧ t = raise c s := by
  cases r with
  | ok u => simp
  | error c => simp [eq_comm]

theorem causeCode_ne_zero (c : Cause) : causeCode c ≠ 0 := by cases c <;> decide

theorem causeCode_le (c : Cause) : (causeCode c).toNat ≤ 7 := by cases c <;> decide

/-! ## Mailbox -/

theorem satSucc_toNat (d : BitVec 16) : (satSucc d).toNat = min 65535 (d.toNat + 1) := by
  unfold satSucc
  split
  · next h => subst h; decide
  · next h =>
    have h1 : d.toNat ≠ 65535 := fun h' => h (BitVec.eq_of_toNat_eq (by simpa using h'))
    have h2 := d.isLt
    rw [BitVec.toNat_add]
    simp
    omega

/-- Everything `Post` does (R100). -/
theorem post_eq (e : Event) (s : State) :
    post e s =
      { s with
        slot := if s.slot = .idle then e else s.slot
        dropCnt := if e = .idle ∨ s.slot = .idle then s.dropCnt else satSucc s.dropCnt } := by
  obtain ⟨slot⟩ := s
  by_cases h1 : e = .idle <;> by_cases h2 : slot = .idle <;> simp [post, h1, h2]

/-- Everything an interrupt's wake does (R185). -/
theorem wakeIfSleeping_eq (s : State) :
    wakeIfSleeping s =
      { s with
        sleeping := false
        mode := if s.sleeping = true then 0 else s.mode
        out := if s.sleeping = true then s.out ++ [.wake] else s.out } := by
  unfold wakeIfSleeping
  by_cases h : s.sleeping = true
  · simp [h, wake, emit]
  · obtain ⟨⟩ := s
    simp_all

/-! ## Sleep-block counters -/

theorem blkAt_setBlk_self (s : State) (l v : Nat) (h : l - 1 < s.blk.length) : blkAt (setBlk l v s) l = v := by
  simp [blkAt, setBlk, List.getD_eq_getElem?_getD, h]

theorem blkAt_setBlk_of_ne (s : State) (l k v : Nat) (h : l - 1 ≠ k - 1) : blkAt (setBlk l v s) k = blkAt s k := by
  simp [blkAt, setBlk, List.getD_eq_getElem?_getD, List.getElem?_set_ne h]

/-- BLK[L] reads only the list of counts. -/
theorem blkAt_congr {s t : State} (h : t.blk = s.blk) (l : Nat) : blkAt t l = blkAt s l := by simp [blkAt, h]

theorem blockCore_full {s : State} {l : Nat} (h : blkAt s l = 2 ^ s.cfg.bcW - 1) :
    blockCore l s = .error .blkOverflow := by simp [blockCore, h]

theorem blockCore_below {s : State} {l : Nat} (h : blkAt s l ≠ 2 ^ s.cfg.bcW - 1) :
    blockCore l s = .ok (emit (.block l) (setBlk l (blkAt s l + 1) s)) := by simp [blockCore, h]

theorem unblockCore_zero {s : State} {l : Nat} (h : blkAt s l = 0) : unblockCore l s = .error .blkUnderflow := by
  simp [unblockCore, h]

theorem unblockCore_held {s : State} {l : Nat} (h : blkAt s l ≠ 0) :
    unblockCore l s = .ok (emit (.unblock l) (setBlk l (blkAt s l - 1) s)) := by simp [unblockCore, h]

/-- What the loop of R180 answers: it stops at the first blocked level, or at the end. -/
theorem allowedFrom_spec (s : State) (n l : Nat) (hl : 1 ≤ l) :
    l - 1 ≤ allowedFrom s n l ∧ allowedFrom s n l ≤ l - 1 + n ∧
    (∀ k, l ≤ k → k ≤ allowedFrom s n l → blkAt s k = 0) ∧
    (allowedFrom s n l < l - 1 + n → 0 < blkAt s (allowedFrom s n l + 1)) := by
  induction n generalizing l with
  | zero =>
    refine ⟨le_refl _, le_refl _, fun k h1 h2 => ?_, fun h => ?_⟩
    · simp only [allowedFrom] at h2; omega
    · simp only [allowedFrom] at h; omega
  | succ n ih =>
    by_cases h : 0 < blkAt s l
    · have e : allowedFrom s (n + 1) l = l - 1 := by simp [allowedFrom, h]
      rw [e]
      refine ⟨le_refl _, by omega, fun k h1 h2 => by omega, fun _ => ?_⟩
      rwa [Nat.sub_add_cancel hl]
    · have e : allowedFrom s (n + 1) l = allowedFrom s n (l + 1) := by simp [allowedFrom, h]
      obtain ⟨i1, i2, i3, i4⟩ := ih (l + 1) (by omega)
      rw [e]
      refine ⟨by omega, by omega, fun k h1 h2 => ?_, fun h5 => i4 (by omega)⟩
      rcases Nat.eq_or_lt_of_le h1 with rfl | h6
      · omega
      · exact i3 k h6 h2

/-! ## Deferred trigger -/

/-- Everything `ArmCore` does (R160). -/
theorem armCore_eq (us : Nat) (s : State) :
    armCore us s =
      { s with
        cmp := (s.now + effectiveDelay s.cfg us) % 2 ^ s.cfg.clkW
        armed := true
        cmpPend := false
        wTrunc := if s.cfg.maxDelay < ticksOf s.cfg us then true else s.wTrunc
        out :=
          if s.cfg.maxDelay < ticksOf s.cfg us then s.out ++ [.logTrunc (ticksOf s.cfg us) s.cfg.maxDelay]
          else s.out } := by
  unfold armCore warnTrunc
  by_cases h : s.cfg.maxDelay < ticksOf s.cfg us <;> simp [h, emit]

/-- Everything a TICK does (R163). -/
theorem tickCore_eq (s : State) :
    tickCore s =
      { s with
        now := (s.now + 1) % 2 ^ s.cfg.clkW
        cmpPend := if s.armed = true ∧ (s.now + 1) % 2 ^ s.cfg.clkW = s.cmp then true else s.cmpPend
        armed := if s.armed = true ∧ (s.now + 1) % 2 ^ s.cfg.clkW = s.cmp then false else s.armed } := by
  unfold tickCore
  by_cases h : s.armed = true ∧ (s.now + 1) % 2 ^ s.cfg.clkW = s.cmp <;> simp [h]

/-- The effective delay is at least one tick, and within MAX_DELAY where MAX_DELAY allows one (R165). -/
theorem effectiveDelay_bounds (c : Params) (us : Nat) (h : 1 ≤ c.maxDelay) :
    1 ≤ effectiveDelay c us ∧ effectiveDelay c us ≤ c.maxDelay := by
  unfold effectiveDelay
  omega

/-! ## Draws -/

/-- A draw of received bytes has READ_LEN bytes (R89). -/
theorem nextReceived_length (s : State) : (nextReceived s).length = s.cfg.readLen := by simp [nextReceived]

/-! ## Sequencer -/

theorem teardown_off (s : State) : teardown .sensorOff s = .ok (emit .busReset (railOff s)) := rfl

/-- A teardown out of a state other than SensorOff, with a block to release (R125). -/
theorem teardown_held {q : SeqState} {s : State} (hq : q ≠ .sensorOff) (h : blkAt s (deepest s.cfg) ≠ 0) :
    teardown q s =
      .ok
        { s with
          railEn := false
          blk := s.blk.set (deepest s.cfg - 1) (blkAt s (deepest s.cfg) - 1)
          out := s.out ++ [.railOff, .unblock (deepest s.cfg), .busReset] } := by
  have h' : blkAt (railOff s) (deepest s.cfg) ≠ 0 := h
  have e : unblockCore (deepest s.cfg) (railOff s) = _ := unblockCore_held h'
  rw [teardown, if_neg hq, e]
  simp [emit, setBlk, railOff, blkAt]

/-- A teardown out of a state other than SensorOff, with no block to release (R125, R136). -/
theorem teardown_zero {q : SeqState} {s : State} (hq : q ≠ .sensorOff) (h : blkAt s (deepest s.cfg) = 0) :
    teardown q s = .error .blkUnderflow := by
  have h' : blkAt (railOff s) (deepest s.cfg) = 0 := h
  have e : unblockCore (deepest s.cfg) (railOff s) = _ := unblockCore_zero h'
  rw [teardown, if_neg hq, e]

end Sys2Proof.Machine
end

