-- ==== Sys2Proof/Laws/Sequencer.lean ====
section
/-!
SUPPORT. The inversion of the next-state decode: everything `Advance` can do (spec/41_scheduler.md R121 to R134), and what
its result does not depend on.
-/

namespace Sys2Proof.Machine

/-- What one `Advance` leaves of the counters and the deadline: a step within the same class of states, the start of an
acquisition, or its end. -/
abbrev AdvanceShape (s t : State) : Prop :=
  (t.blk = s.blk ∧ t.cmp = s.cmp ∧ t.armed = s.armed ∧ t.cmpPend = s.cmpPend ∧ t.wTrunc = s.wTrunc ∧
    ((s.fsm = .sensorOff ∧ t.fsm = .sensorOff ∧ (t.railEn = s.railEn ∨ t.railEn = false)) ∨
     (s.fsm ≠ .sensorOff ∧ t.fsm ≠ .sensorOff ∧ t.railEn = s.railEn))) ∨
  (s.fsm = .sensorOff ∧ t.fsm = .awaitingPowerUp ∧ t.railEn = true ∧
    blkAt s (deepest s.cfg) ≠ 2 ^ s.cfg.bcW - 1 ∧
    t.blk = s.blk.set (deepest s.cfg - 1) (blkAt s (deepest s.cfg) + 1) ∧
    t.cmp = (s.now + effectiveDelay s.cfg s.cfg.tSettleUs) % 2 ^ s.cfg.clkW ∧ t.armed = true ∧ t.cmpPend = false ∧
    (s.wTrunc = true → t.wTrunc = true)) ∨
  (s.fsm ≠ .sensorOff ∧ t.fsm = .sensorOff ∧ t.railEn = false ∧ blkAt s (deepest s.cfg) ≠ 0 ∧
    t.blk = s.blk.set (deepest s.cfg - 1) (blkAt s (deepest s.cfg) - 1) ∧
    t.cmp = s.cmp ∧ t.armed = s.armed ∧ t.cmpPend = s.cmpPend ∧ t.wTrunc = s.wTrunc)

/-- What every `Advance` leaves alone, and how it writes the warnings and the output. -/
abbrev AdvanceFrame (s t : State) : Prop :=
  (t.slot = s.slot ∧ t.now = s.now ∧ t.sleeping = s.sleeping ∧ t.mode = s.mode ∧ t.dropCnt = s.dropCnt ∧
    t.fault = s.fault ∧ t.fcause = s.fcause ∧ t.res = s.res ∧ t.cfg = s.cfg ∧ t.port = s.port ∧
    t.offered = s.offered ∧ t.turns = s.turns) ∧
  (s.wInvalid = true → t.wInvalid = true) ∧ (s.wReject = true → t.wReject = true) ∧
  ∃ es : List OutEvent, (∀ a b, OutEvent.logTransition a b ∉ es) ∧
    t.out = s.out ++ es ++ (if t.fsm = s.fsm then [] else [.logTransition s.fsm t.fsm])

theorem advanceCore_of_ok {s t : State} {q : SeqState} {e : Event} (h : tableEntry s.fsm e s = .ok (q, t)) :
    advanceCore e s = .ok (enterState s.fsm q t) := by simp [advanceCore, h]

theorem advanceCore_of_error {s : State} {c : Cause} {e : Event} (h : tableEntry s.fsm e s = .error c) :
    advanceCore e s = .error c := by simp [advanceCore, h]

/-- A teardown entry, from a state other than SensorOff: it ends the acquisition or underflows. -/
theorem tearDownToOff_eq {q : SeqState} (hq : q ≠ .sensorOff) (s : State) :
    tearDownToOff q s =
      if blkAt s (deepest s.cfg) = 0 then .error .blkUnderflow
      else .ok (.sensorOff,
        { s with
          railEn := false
          blk := s.blk.set (deepest s.cfg - 1) (blkAt s (deepest s.cfg) - 1)
          out := s.out ++ [.railOff, .unblock (deepest s.cfg), .busReset] }) := by
  by_cases h : blkAt s (deepest s.cfg) = 0
  · simp [tearDownToOff, teardown_zero hq h, h]
  · simp [tearDownToOff, teardown_held hq h, h]

/-- Row 22 of R133. -/
theorem publishMeasurement_eq (s : State) :
    publishMeasurement s =
      if blkAt s (deepest s.cfg) = 0 then .error .blkUnderflow
      else .ok (.sensorOff,
        { s with
          railEn := false
          blk := s.blk.set (deepest s.cfg - 1) (blkAt s (deepest s.cfg) - 1)
          received := s.received.tail
          draws := s.draws + 1
          out :=
            s.out ++ [.railOff, .unblock (deepest s.cfg), .busReset, .publish (decodeReceived (nextReceived s))] }) := by
  by_cases h : blkAt s (deepest s.cfg) = 0
  · simp [publishMeasurement, teardown_zero (q := .awaitingReadCompletion) (by decide) h, h]
  · simp [publishMeasurement, teardown_held (q := .awaitingReadCompletion) (by decide) h, h, emit, afterReceived,
      nextReceived]

/-- Row 2 of R133. -/
theorem startAcquisition_eq (s : State) :
    startAcquisition s =
      if blkAt s (deepest s.cfg) = 2 ^ s.cfg.bcW - 1 then .error .blkOverflow
      else .ok (.awaitingPowerUp, armCore s.cfg.tSettleUs
        { s with
          railEn := true
          blk := s.blk.set (deepest s.cfg - 1) (blkAt s (deepest s.cfg) + 1)
          out := s.out ++ [.railOn, .block (deepest s.cfg)] }) := by
  by_cases h : blkAt s (deepest s.cfg) = 2 ^ s.cfg.bcW - 1
  · have h' : blkAt (railOn s) (deepest s.cfg) = 2 ^ (railOn s).cfg.bcW - 1 := h
    rw [startAcquisition, blockCore_full h', if_pos h]
  · have h' : blkAt (railOn s) (deepest s.cfg) ≠ 2 ^ (railOn s).cfg.bcW - 1 := h
    rw [startAcquisition, blockCore_below h', if_neg h]
    simp [emit, setBlk, railOn, blkAt]

/-- Row 9 of R133. -/
theorem beginWrite_eq (s : State) :
    beginWrite s =
      if nextReply s = .accepted then .ok (.awaitingWriteCompletion,
        { s with
          replies := s.replies.tail
          draws := s.draws + 1
          out := s.out ++ [.busWrite s.cfg.writeCmd] })
      else .ok (.awaitingPowerUp,
        { s with
          wReject := true
          replies := s.replies.tail
          draws := s.draws + 1
          out := s.out ++ [.busWrite s.cfg.writeCmd, .logReject .awaitingPowerUp] }) := by
  have h : nextReply (emit (.busWrite s.cfg.writeCmd) s) = nextReply s := rfl
  rw [beginWrite, h]
  cases nextReply s <;> simp [emit, afterReply, logReject]

/-- Row 16 of R133. -/
theorem beginRead_eq (s : State) :
    beginRead s =
      if nextReply s = .accepted then .ok (.awaitingReadCompletion,
        { s with
          replies := s.replies.tail
          draws := s.draws + 1
          out := s.out ++ [.busRead s.cfg.readLen] })
      else if blkAt s (deepest s.cfg) = 0 then .error .blkUnderflow
      else .ok (.sensorOff,
        { s with
          wReject := true
          railEn := false
          blk := s.blk.set (deepest s.cfg - 1) (blkAt s (deepest s.cfg) - 1)
          replies := s.replies.tail
          draws := s.draws + 1
          out :=
            s.out ++ [.busRead s.cfg.readLen, .logReject .awaitingWriteCompletion, .railOff, .unblock (deepest s.cfg),
              .busReset] }) := by
  have h : nextReply (emit (.busRead s.cfg.readLen) s) = nextReply s := rfl
  rw [beginRead, h]
  cases nextReply s
  · simp [emit, afterReply]
  · simp [tearDownToOff_eq, emit, afterReply, logReject, blkAt]

/-- A teardown from SensorOff (row 6 of R133). -/
theorem tearDownToOff_off (s : State) :
    tearDownToOff .sensorOff s =
      .ok (.sensorOff, { s with railEn := false, out := s.out ++ [.railOff, .busReset] }) := by
  simp [tearDownToOff, teardown_off, emit, railOff]

/-- The six kinds of entry of the table (R133): self-loop, unmatched, teardown, and the four entries of their own. -/
theorem tableEntry_kinds (q : SeqState) (e : Event) (s : State) :
    (e = .idle ∧ tableEntry q e s = .ok (q, s)) ∨
    ((q, e) ∈ unmatchedPairs ∧ tableEntry q e s = .ok (q, logInvalid q e s)) ∨
    ((q, e) ∈ teardownPairs ∧ tableEntry q e s = tearDownToOff q s) ∨
    (q = .sensorOff ∧ e = .linkLost ∧ tableEntry q e s = tearDownToOff .sensorOff s) ∨
    (q = .sensorOff ∧ e = .measureRequested ∧ tableEntry q e s = startAcquisition s) ∨
    (q = .awaitingPowerUp ∧ e = .deferredTimerFired ∧ tableEntry q e s = beginWrite s) ∨
    (q = .awaitingWriteCompletion ∧ e = .transferDone ∧ tableEntry q e s = beginRead s) ∨
    (q = .awaitingReadCompletion ∧ e = .transferDone ∧ tableEntry q e s = publishMeasurement s) := by
  cases q <;> cases e <;> simp [tableEntry, unmatched, unmatchedPairs, teardownPairs]

theorem teardownPairs_ne_off {q : SeqState} {e : Event} (h : (q, e) ∈ teardownPairs) : q ≠ .sensorOff := by
  rintro rfl
  simp [teardownPairs] at h

/-- Everything an `Advance` that raises no fault does. -/
theorem advanceCore_inv {e : Event} {s t : State} (h : advanceCore e s = .ok t) :
    AdvanceFrame s t ∧ AdvanceShape s t := by
  rcases tableEntry_kinds s.fsm e s with ⟨-, k⟩ | ⟨-, k⟩ | ⟨hm, k⟩ | ⟨hq, -, k⟩ | ⟨hq, -, k⟩ | ⟨hq, -, k⟩ | ⟨hq, -, k⟩ |
    ⟨hq, -, k⟩
  · obtain rfl := Except.ok.inj ((advanceCore_of_ok k).symm.trans h)
    refine ⟨⟨?_, ?_, ?_, [], ?_, ?_⟩, ?_⟩ <;> simp [AdvanceShape, enterState]
    by_cases hq : s.fsm = .sensorOff <;> simp [hq]
  · obtain rfl := Except.ok.inj ((advanceCore_of_ok k).symm.trans h)
    refine ⟨⟨?_, ?_, ?_, [.logInvalid s.fsm e], ?_, ?_⟩, ?_⟩ <;> simp [AdvanceShape, enterState]
    by_cases hq : s.fsm = .sensorOff <;> simp [hq]
  · have hq := teardownPairs_ne_off hm
    rw [tearDownToOff_eq hq] at k
    split at k
    · simp [advanceCore_of_error k] at h
    · next hb =>
      obtain rfl := Except.ok.inj ((advanceCore_of_ok k).symm.trans h)
      refine ⟨⟨?_, ?_, ?_, [.railOff, .unblock (deepest s.cfg), .busReset], ?_, ?_⟩, ?_⟩ <;>
        simp [AdvanceShape, enterState, emit, hq, Ne.symm hq, hb]
  · rw [tearDownToOff_off] at k
    obtain rfl := Except.ok.inj ((advanceCore_of_ok k).symm.trans h)
    refine ⟨⟨?_, ?_, ?_, [.railOff, .busReset], ?_, ?_⟩, ?_⟩ <;> simp [AdvanceShape, enterState, hq]
  · rw [startAcquisition_eq] at k
    split at k
    · simp [advanceCore_of_error k] at h
    · next hb =>
      obtain rfl := Except.ok.inj ((advanceCore_of_ok k).symm.trans h)
      rw [armCore_eq]
      refine ⟨⟨?_, ?_, ?_, [.railOn, .block (deepest s.cfg)] ++
        (if s.cfg.maxDelay < ticksOf s.cfg s.cfg.tSettleUs
          then [.logTrunc (ticksOf s.cfg s.cfg.tSettleUs) s.cfg.maxDelay] else []), ?_, ?_⟩, ?_⟩ <;>
        simp [AdvanceShape, enterState, emit, hq, hb]
      · split <;> simp
      · exact Or.inr
  · rw [beginWrite_eq] at k
    split at k
    · obtain rfl := Except.ok.inj ((advanceCore_of_ok k).symm.trans h)
      refine ⟨⟨?_, ?_, ?_, [.busWrite s.cfg.writeCmd], ?_, ?_⟩, ?_⟩ <;> simp [AdvanceShape, enterState, emit, hq]
    · obtain rfl := Except.ok.inj ((advanceCore_of_ok k).symm.trans h)
      refine ⟨⟨?_, ?_, ?_, [.busWrite s.cfg.writeCmd, .logReject .awaitingPowerUp], ?_, ?_⟩, ?_⟩ <;>
        simp [AdvanceShape, enterState, hq]
  · rw [beginRead_eq] at k
    split at k
    · obtain rfl := Except.ok.inj ((advanceCore_of_ok k).symm.trans h)
      refine ⟨⟨?_, ?_, ?_, [.busRead s.cfg.readLen], ?_, ?_⟩, ?_⟩ <;> simp [AdvanceShape, enterState, emit, hq]
    · split at k
      · simp [advanceCore_of_error k] at h
      · next hb =>
        obtain rfl := Except.ok.inj ((advanceCore_of_ok k).symm.trans h)
        refine ⟨⟨?_, ?_, ?_, [.busRead s.cfg.readLen, .logReject .awaitingWriteCompletion, .railOff,
          .unblock (deepest s.cfg), .busReset], ?_, ?_⟩, ?_⟩ <;> simp [AdvanceShape, enterState, emit, hq, hb]
  · rw [publishMeasurement_eq] at k
    split at k
    · simp [advanceCore_of_error k] at h
    · next hb =>
      obtain rfl := Except.ok.inj ((advanceCore_of_ok k).symm.trans h)
      refine ⟨⟨?_, ?_, ?_, [.railOff, .unblock (deepest s.cfg), .busReset,
        .publish (decodeReceived (nextReceived s))], ?_, ?_⟩, ?_⟩ <;> simp [AdvanceShape, enterState, emit, hq, hb]

/-- The two ways an `Advance` raises a fault (R120, R212). -/
theorem advanceCore_error {e : Event} {s : State} {c : Cause} (h : advanceCore e s = .error c) :
    (c = .blkOverflow ∧ s.fsm = .sensorOff ∧ e = .measureRequested ∧
      blkAt s (deepest s.cfg) = 2 ^ s.cfg.bcW - 1) ∨
    (c = .blkUnderflow ∧ s.fsm ≠ .sensorOff ∧ blkAt s (deepest s.cfg) = 0) := by
  rcases tableEntry_kinds s.fsm e s with ⟨-, k⟩ | ⟨-, k⟩ | ⟨hm, k⟩ | ⟨hq, -, k⟩ | ⟨hq, he, k⟩ | ⟨hq, -, k⟩ | ⟨hq, -, k⟩ |
    ⟨hq, -, k⟩
  · simp [advanceCore_of_ok k] at h
  · simp [advanceCore_of_ok k] at h
  · have hq := teardownPairs_ne_off hm
    rw [tearDownToOff_eq hq] at k
    split at k
    · next hb => exact .inr ⟨(Except.error.inj ((advanceCore_of_error k).symm.trans h)).symm, hq, hb⟩
    · simp [advanceCore_of_ok k] at h
  · rw [tearDownToOff_off] at k
    simp [advanceCore_of_ok k] at h
  · rw [startAcquisition_eq] at k
    split at k
    · next hb => exact .inl ⟨(Except.error.inj ((advanceCore_of_error k).symm.trans h)).symm, hq, he, hb⟩
    · simp [advanceCore_of_ok k] at h
  · rw [beginWrite_eq] at k
    split at k <;> simp [advanceCore_of_ok k] at h
  · rw [beginRead_eq] at k
    split at k
    · simp [advanceCore_of_ok k] at h
    · split at k
      · next hb =>
        exact .inr ⟨(Except.error.inj ((advanceCore_of_error k).symm.trans h)).symm, by simp [hq], hb⟩
      · simp [advanceCore_of_ok k] at h
  · rw [publishMeasurement_eq] at k
    split at k
    · next hb => exact .inr ⟨(Except.error.inj ((advanceCore_of_error k).symm.trans h)).symm, by simp [hq], hb⟩
    · simp [advanceCore_of_ok k] at h

end Sys2Proof.Machine
end

