-- ==== Sys2Proof/Laws/Exec.lean ====
section
/-!
SUPPORT. One lemma per meaning that says everything it can do: an equation where it cannot raise a fault, else an inversion;
and at the end one for `exec`.
-/

namespace Sys2Proof.Machine

/-- What an operand of format L decodes to (R78). -/
theorem levelOperand_eq (c : Params) (lvl : BitVec 4) :
    levelOperand c lvl = if LegalLevel c lvl then .ok lvl.toNat else .error .badLevel := by
  unfold levelOperand LegalLevel
  by_cases h : lvl.toNat = 0 ∨ c.m ≤ lvl.toNat
  · rw [if_pos h, if_neg (by omega)]
  · rw [if_neg h, if_pos (by omega)]

/-- SIGNAL on a port that is no producer's (R101). -/
theorem execSignal_quiet {s : State} (h : isProducer s.port = false) (e : Event) :
    execSignal e s = .next (post e s) := by simp [execSignal, h]

/-- SIGNAL on a producer's port (R101, R185). -/
theorem execSignal_producer {s : State} (h : isProducer s.port = true) (e : Event) :
    execSignal e s = .next (wakeIfSleeping (post e s)) := by simp [execSignal, h]

/-- CMPSVC with its request pending (R164). -/
theorem execCmpsvc_pending {s : State} (h : s.cmpPend = true) :
    execCmpsvc s = .next (wakeIfSleeping (post .deferredTimerFired { s with cmpPend := false })) := by
  simp [execCmpsvc, h]

/-- CMPSVC without a request (R164). -/
theorem execCmpsvc_idle {s : State} (h : s.cmpPend = false) : execCmpsvc s = .next s := by simp [execCmpsvc, h]

/-- What a BLOCK can do (R181). -/
theorem execBlock_inv {lvl : BitVec 4} {s t : State} (h : execBlock lvl s = .next t) :
    (¬LegalLevel s.cfg lvl ∧ t = raise .badLevel s) ∨
    (LegalLevel s.cfg lvl ∧ blkAt s lvl.toNat = 2 ^ s.cfg.bcW - 1 ∧ t = raise .blkOverflow s) ∨
    (LegalLevel s.cfg lvl ∧ blkAt s lvl.toNat ≠ 2 ^ s.cfg.bcW - 1 ∧
      t = emit (.block lvl.toNat) (setBlk lvl.toNat (blkAt s lvl.toNat + 1) s)) := by
  by_cases hl : LegalLevel s.cfg lvl
  · by_cases hb : blkAt s lvl.toNat = 2 ^ s.cfg.bcW - 1
    · simp only [execBlock, onLevel, levelOperand_eq, if_pos hl, blockCore_full hb, finish_error] at h
      exact .inr (.inl ⟨hl, hb, (Host.Outcome.next.inj h).symm⟩)
    · simp only [execBlock, onLevel, levelOperand_eq, if_pos hl, blockCore_below hb, finish_ok] at h
      exact .inr (.inr ⟨hl, hb, (Host.Outcome.next.inj h).symm⟩)
  · simp only [execBlock, onLevel, levelOperand_eq, if_neg hl, finish_error] at h
    exact .inl ⟨hl, (Host.Outcome.next.inj h).symm⟩

/-- What an UNBLOCK can do (R182). -/
theorem execUnblock_inv {lvl : BitVec 4} {s t : State} (h : execUnblock lvl s = .next t) :
    (¬LegalLevel s.cfg lvl ∧ t = raise .badLevel s) ∨
    (LegalLevel s.cfg lvl ∧ blkAt s lvl.toNat = 0 ∧ t = raise .blkUnderflow s) ∨
    (LegalLevel s.cfg lvl ∧ blkAt s lvl.toNat ≠ 0 ∧
      t = emit (.unblock lvl.toNat) (setBlk lvl.toNat (blkAt s lvl.toNat - 1) s)) := by
  by_cases hl : LegalLevel s.cfg lvl
  · by_cases hb : blkAt s lvl.toNat = 0
    · simp only [execUnblock, onLevel, levelOperand_eq, if_pos hl, unblockCore_zero hb, finish_error] at h
      exact .inr (.inl ⟨hl, hb, (Host.Outcome.next.inj h).symm⟩)
    · simp only [execUnblock, onLevel, levelOperand_eq, if_pos hl, unblockCore_held hb, finish_ok] at h
      exact .inr (.inr ⟨hl, hb, (Host.Outcome.next.inj h).symm⟩)
  · simp only [execUnblock, onLevel, levelOperand_eq, if_neg hl, finish_error] at h
    exact .inl ⟨hl, (Host.Outcome.next.inj h).symm⟩

/-- What an RDBLK can do (R201). -/
theorem execRdblk_inv {lvl : BitVec 4} {s t : State} (h : execRdblk lvl s = .next t) :
    (¬LegalLevel s.cfg lvl ∧ t = raise .badLevel s) ∨
    (LegalLevel s.cfg lvl ∧ t = { s with res := BitVec.ofNat 32 (blkAt s lvl.toNat) }) := by
  by_cases hl : LegalLevel s.cfg lvl
  · simp only [execRdblk, levelOperand_eq, if_pos hl] at h
    exact .inr ⟨hl, (Host.Outcome.next.inj h).symm⟩
  · simp only [execRdblk, levelOperand_eq, if_neg hl] at h
    exact .inl ⟨hl, (Host.Outcome.next.inj h).symm⟩

/-- What an ADVANCE can do (R120). -/
theorem execAdvance_inv {e : Event} {s t : State} (h : execAdvance e s = .next t) :
    (∃ u, advanceCore e s = .ok u ∧ t = { u with res := seqWord u.fsm }) ∨
    (∃ c, advanceCore e s = .error c ∧ t = raise c s) := by
  unfold execAdvance advanceResult at h
  cases k : advanceCore e s with
  | ok u =>
    rw [k] at h
    exact .inl ⟨u, rfl, (Host.Outcome.next.inj h).symm⟩
  | error c =>
    rw [k] at h
    exact .inr ⟨c, rfl, (Host.Outcome.next.inj h).symm⟩

/-- What a GATE can do (R183). -/
theorem execGate_inv {s t : State} (h : execGate s = .next t) :
    (s.slot = .idle ∧ t = gateEmpty s) ∨
    (s.slot ≠ .idle ∧ ∃ u, advanceCore s.slot (clearSlot s) = .ok u ∧
      t = { u with res := gateTakeWord s.slot u.fsm }) ∨
    (s.slot ≠ .idle ∧ ∃ c, advanceCore s.slot (clearSlot s) = .error c ∧ t = raise c s) := by
  by_cases hs : s.slot = .idle
  · simp only [execGate, pend, hs, bne_self_eq_false, Bool.false_eq_true, if_false] at h
    exact .inl ⟨hs, (Host.Outcome.next.inj h).symm⟩
  · have hp : pend s = true := by simpa [pend] using hs
    simp only [execGate, hp, if_true, gateTake] at h
    cases k : advanceCore s.slot (clearSlot s) with
    | ok u =>
      rw [k] at h
      exact .inr (.inl ⟨hs, u, rfl, (Host.Outcome.next.inj h).symm⟩)
    | error c =>
      rw [k] at h
      exact .inr (.inr ⟨hs, c, rfl, (Host.Outcome.next.inj h).symm⟩)

/-- What a GATE that finds the slot empty does (R183, R184). -/
theorem gateEmpty_eq (s : State) :
    gateEmpty s =
      if allowedMode s = 0 then { s with res := 0 }
      else
        { s with
          mode := BitVec.ofNat 4 (allowedMode s)
          sleeping := true
          res := gateSleepWord (allowedMode s)
          out := s.out ++ [.sleep (allowedMode s)] } := rfl

/-- The allowed mode is a mode (R180). -/
theorem allowedMode_le (s : State) : allowedMode s ≤ s.cfg.m - 1 := by
  have h := (allowedFrom_spec s (s.cfg.m - 1) 1 (le_refl _)).2.1
  simpa [allowedMode] using h

/-- How a command's execution can raise a fault (R211, R212): the causes, and the commands each comes from. -/
abbrev FaultShape (i : Instr) (c : Cause) : Prop :=
  c = .badLevel ∧ (∃ lvl, i = .block lvl ∨ i = .unblock lvl ∨ i = .rdblk lvl) ∨
  c = .blkOverflow ∧ ((∃ lvl, i = .block lvl) ∨ (∃ e, i = .advance e) ∨ i = .gate) ∨
  c = .blkUnderflow ∧ ((∃ lvl, i = .unblock lvl) ∨ (∃ e, i = .advance e) ∨ i = .gate)

/-- The cause of a failed `Advance`, as a shape of ADVANCE and of GATE. -/
theorem faultShape_of_advanceCore {e : Event} {s : State} {c : Cause} {i : Instr} (h : advanceCore e s = .error c)
    (hi : (∃ e, i = .advance e) ∨ i = .gate) : FaultShape i c := by
  rcases advanceCore_error h with ⟨rfl, -⟩ | ⟨rfl, -⟩
  · exact .inr (.inl ⟨rfl, .inr hi⟩)
  · exact .inr (.inr ⟨rfl, .inr hi⟩)

/-- Everything a command can do when it answers a next state: its own effect, or fault entry. -/
theorem exec_cases {i : Instr} {s t : State} (h : exec i s = .next t) :
    (∃ c, t = raise c s ∧ FaultShape i c) ∨
    match i with
    | .signal e => t = if isProducer s.port = true then wakeIfSleeping (post e s) else post e s
    | .haspend => t = { s with res := flagWord (pend s) }
    | .take => t = { clearSlot s with res := tagWord s.slot }
    | .advance e => ∃ u, advanceCore e s = .ok u ∧ t = { u with res := seqWord u.fsm }
    | .arm off => t = armCore off.toNat s
    | .disarm => t = { s with armed := false, cmpPend := false }
    | .block l =>
      blkAt s l.toNat ≠ 2 ^ s.cfg.bcW - 1 ∧ t = emit (.block l.toNat) (setBlk l.toNat (blkAt s l.toNat + 1) s)
    | .unblock l => blkAt s l.toNat ≠ 0 ∧ t = emit (.unblock l.toNat) (setBlk l.toNat (blkAt s l.toNat - 1) s)
    | .gate =>
      s.slot = .idle ∧ t = gateEmpty s ∨
      s.slot ≠ .idle ∧ ∃ u, advanceCore s.slot (clearSlot s) = .ok u ∧ t = { u with res := gateTakeWord s.slot u.fsm }
    | .rdstat => t = { s with res := statusWord s }
    | .rdblk l => t = { s with res := BitVec.ofNat 32 (blkAt s l.toNat) }
    | .clrstat => t = { s with wTrunc := false, wInvalid := false, wReject := false, dropCnt := 0 }
    | .tick => t = tickCore s
    | .cmpsvc =>
      s.cmpPend = true ∧ t = wakeIfSleeping (post .deferredTimerFired { s with cmpPend := false }) ∨
      s.cmpPend = false ∧ t = s := by
  cases i with
  | signal e =>
    obtain rfl := Host.Outcome.next.inj h
    exact .inr rfl
  | advance e =>
    rcases execAdvance_inv h with hu | ⟨c, hc, rfl⟩
    · exact .inr hu
    · exact .inl ⟨c, rfl, faultShape_of_advanceCore hc (.inl ⟨e, rfl⟩)⟩
  | block l =>
    rcases execBlock_inv h with ⟨-, rfl⟩ | ⟨-, -, rfl⟩ | ⟨-, hb, rfl⟩
    · exact .inl ⟨_, rfl, .inl ⟨rfl, l, .inl rfl⟩⟩
    · exact .inl ⟨_, rfl, .inr (.inl ⟨rfl, .inl ⟨l, rfl⟩⟩)⟩
    · exact .inr ⟨hb, rfl⟩
  | unblock l =>
    rcases execUnblock_inv h with ⟨-, rfl⟩ | ⟨-, -, rfl⟩ | ⟨-, hb, rfl⟩
    · exact .inl ⟨_, rfl, .inl ⟨rfl, l, .inr (.inl rfl)⟩⟩
    · exact .inl ⟨_, rfl, .inr (.inr ⟨rfl, .inl ⟨l, rfl⟩⟩)⟩
    · exact .inr ⟨hb, rfl⟩
  | gate =>
    rcases execGate_inv h with hg | ⟨hs, hu⟩ | ⟨-, c, hc, rfl⟩
    · exact .inr (.inl hg)
    · exact .inr (.inr ⟨hs, hu⟩)
    · exact .inl ⟨c, rfl, faultShape_of_advanceCore hc (.inr rfl)⟩
  | rdblk l =>
    rcases execRdblk_inv h with ⟨-, rfl⟩ | ⟨-, rfl⟩
    · exact .inl ⟨_, rfl, .inl ⟨rfl, l, .inr (.inr rfl)⟩⟩
    · exact .inr rfl
  | cmpsvc =>
    cases hp : s.cmpPend
    · exact .inr (.inr ⟨rfl, (Host.Outcome.next.inj ((execCmpsvc_idle hp).symm.trans h)).symm⟩)
    · exact .inr (.inl ⟨rfl, (Host.Outcome.next.inj ((execCmpsvc_pending hp).symm.trans h)).symm⟩)
  | haspend => exact .inr (Host.Outcome.next.inj h).symm
  | take => exact .inr (Host.Outcome.next.inj h).symm
  | arm off => exact .inr (Host.Outcome.next.inj h).symm
  | disarm => exact .inr (Host.Outcome.next.inj h).symm
  | rdstat => exact .inr (Host.Outcome.next.inj h).symm
  | clrstat => exact .inr (Host.Outcome.next.inj h).symm
  | tick => exact .inr (Host.Outcome.next.inj h).symm

end Sys2Proof.Machine
end

