-- ==== Sys2Proof/Laws/PerInstr.lean ====
section
/-!
SUPPORT. The family EncodedFields: for every command, its word carries its opcode in bits 31..28 and every bit its format
reserves is zero (spec/30_encoding.md R72 to R76, R87). One lemma per constructor of Instr.
-/

namespace Sys2Proof.Laws.EncodedFields

/-- The word of `i` has the opcode of `i` and clear reserved bits. -/
def Statement (i : Instr) : Prop :=
  opField (encode i) = opcodeBits (opcodeOfInstr i) ∧ encode i &&& reservedMask (formatOf (opcodeOfInstr i)) = 0

/-- The operand fields of every command leave its reserved bits clear. -/
theorem reserved_clear (i : Instr) : encode i &&& reservedMask (formatOf (opcodeOfInstr i)) = 0 := by
  rw [reserved_clear_iff]
  have h := encode_toNat i
  rw [operandBits_toNat] at h
  generalize (opcodeBits (opcodeOfInstr i)).toNat = n at h
  generalize encode i = w at h
  cases i with
  | arm off =>
    have := off.isLt
    simp only [opcodeOfInstr, formatOf, h]
    omega
  | _ =>
    simp only [opcodeOfInstr, formatOf, h]
    omega

theorem signal (tag : Event) : Statement (.signal tag) := ⟨opField_encode _, reserved_clear _⟩

theorem haspend : Statement .haspend := ⟨opField_encode _, reserved_clear _⟩

theorem take : Statement .take := ⟨opField_encode _, reserved_clear _⟩

theorem advance (tag : Event) : Statement (.advance tag) := ⟨opField_encode _, reserved_clear _⟩

theorem arm (off : BitVec 24) : Statement (.arm off) := ⟨opField_encode _, reserved_clear _⟩

theorem disarm : Statement .disarm := ⟨opField_encode _, reserved_clear _⟩

theorem block (lvl : BitVec 4) : Statement (.block lvl) := ⟨opField_encode _, reserved_clear _⟩

theorem unblock (lvl : BitVec 4) : Statement (.unblock lvl) := ⟨opField_encode _, reserved_clear _⟩

theorem gate : Statement .gate := ⟨opField_encode _, reserved_clear _⟩

theorem rdstat : Statement .rdstat := ⟨opField_encode _, reserved_clear _⟩

theorem rdblk (lvl : BitVec 4) : Statement (.rdblk lvl) := ⟨opField_encode _, reserved_clear _⟩

theorem clrstat : Statement .clrstat := ⟨opField_encode _, reserved_clear _⟩

theorem tick : Statement .tick := ⟨opField_encode _, reserved_clear _⟩

theorem cmpsvc : Statement .cmpsvc := ⟨opField_encode _, reserved_clear _⟩

end Sys2Proof.Laws.EncodedFields
end

