-- ==== Sys2Proof/Machine/Assembler.lean ====
section
/-!
DEFINITION. The text syntax of commands (spec/30_encoding.md R87) and the one pseudo-instruction (R88), over lists of
characters, and the loading of an assembled program as words offered and turns to come.
-/

namespace Sys2Proof.Machine

/-- The pieces between single spaces, empty ones among them. -/
def splitSpaces : List Char → List (List Char)
  | [] => [[]]
  | c :: cs =>
    match splitSpaces cs with
    | [] => [[c]]
    | t :: ts => if c = ' ' then [] :: t :: ts else (c :: t) :: ts

/-- The tokens of a line: the pieces between runs of spaces (assumption 18). -/
def tokensOf (line : List Char) : List (List Char) := (splitSpaces line).filter fun t => t != []

/-- The value of a digit in base 16, small or capital (assumption 18). -/
def digitValue (c : Char) : Option Nat :=
  let n := c.toNat
  if 48 ≤ n ∧ n ≤ 57 then some (n - 48)
  else if 97 ≤ n ∧ n ≤ 102 then some (n - 87)
  else if 65 ≤ n ∧ n ≤ 70 then some (n - 55)
  else none

/-- The number that digits in base `b` continue from `acc`. -/
def digitsFrom (b : Nat) : Nat → List Char → Option Nat
  | acc, [] => some acc
  | acc, c :: cs =>
    match digitValue c with
    | some d => if d < b then digitsFrom b (acc * b + d) cs else none
    | none => none

/-- A number in base `b` with at least one digit. -/
def numberIn (b : Nat) : List Char → Option Nat
  | [] => none
  | c :: cs => digitsFrom b 0 (c :: cs)

/-- A decimal number, or a hexadecimal one after `0x` (R87). -/
def countNumber : List Char → Option Nat
  | '0' :: 'x' :: hex => numberIn 16 hex
  | tok => numberIn 10 tok

/-- `<port>:` (R87): `cons`, `clk`, `cmp`, or `prod<k>` with k below NPROD. -/
def portToken (c : Params) (tok : List Char) : Option Port :=
  if tok = "cons:".toList then some .cons
  else if tok = "clk:".toList then some .clk
  else if tok = "cmp:".toList then some .cmp
  else if tok.take 4 = "prod".toList ∧ tok.getLast? = some ':' then
    match numberIn 10 ((tok.drop 4).dropLast) with
    | some k => if k < c.nprod then some (.prod k) else none
    | none => none
  else none

/-- An event name or its short form (R10, R87). -/
def eventToken (tok : List Char) : Option Event :=
  if tok = "Idle".toList then some .idle
  else if tok = "MeasureRequested".toList ∨ tok = "MR".toList then some .measureRequested
  else if tok = "DeferredTimerFired".toList ∨ tok = "DTF".toList then some .deferredTimerFired
  else if tok = "TransferDone".toList ∨ tok = "TD".toList then some .transferDone
  else if tok = "TransferError".toList ∨ tok = "TE".toList then some .transferError
  else if tok = "LinkLost".toList ∨ tok = "LL".toList then some .linkLost
  else none

/-- A decimal level that LVL can encode (R87, assumption 18). -/
def levelToken (tok : List Char) : Option (BitVec 4) :=
  match numberIn 10 tok with
  | some n => if n < 2 ^ 4 then some (BitVec.ofNat 4 n) else none
  | none => none

/-- A microsecond count that OFF can encode (R87). -/
def offsetToken (tok : List Char) : Option (BitVec 24) :=
  match countNumber tok with
  | some n => if n < 2 ^ 24 then some (BitVec.ofNat 24 n) else none
  | none => none

/-- The mnemonics of R80 in lower case (R87). -/
def mnemonicTable : List (List Char × Opcode) :=
  [("signal".toList, .signal), ("haspend".toList, .haspend), ("take".toList, .take), ("advance".toList, .advance),
   ("arm".toList, .arm), ("disarm".toList, .disarm), ("block".toList, .block)] ++
  [("unblock".toList, .unblock), ("gate".toList, .gate), ("rdstat".toList, .rdstat), ("rdblk".toList, .rdblk),
   ("clrstat".toList, .clrstat), ("tick".toList, .tick), ("cmpsvc".toList, .cmpsvc)]

/-- The command of a mnemonic and its operand tokens (R87). -/
def commandOf : Opcode → List (List Char) → Option Instr
  | .signal, [t] => (eventToken t).map .signal
  | .haspend, [] => some .haspend
  | .take, [] => some .take
  | .advance, [t] => (eventToken t).map .advance
  | .arm, [t] => (offsetToken t).map .arm
  | .disarm, [] => some .disarm
  | .block, [t] => (levelToken t).map .block
  | .unblock, [t] => (levelToken t).map .unblock
  | .gate, [] => some .gate
  | .rdstat, [] => some .rdstat
  | .rdblk, [t] => (levelToken t).map .rdblk
  | .clrstat, [] => some .clrstat
  | .tick, [] => some .tick
  | .cmpsvc, [] => some .cmpsvc
  | _, _ => none

/-- The count N of the pseudo-instruction `clk: tick xN`, N >= 1 (R88). -/
def tickCount : Port → Opcode → List (List Char) → Option Nat
  | .clk, .tick, ['x' :: digits] =>
    match numberIn 10 digits with
    | some n => if 1 ≤ n then some n else none
    | none => none
  | _, _, _ => none

/-- The words one line stands for, each with its port (R87, R88). -/
def assembleLine (c : Params) (line : List Char) : Option (List (Port × Word)) :=
  match tokensOf line with
  | portTok :: mnemonic :: operands =>
    match portToken c portTok, mnemonicTable.lookup mnemonic with
    | some p, some op =>
      match tickCount p op operands with
      | some n => some (List.replicate n (.clk, encode .tick))
      | none => (commandOf op operands).map fun i => [(p, encode i)]
    | _, _ => none
  | _ => none

/-- A program placed for the machine: its words offered on their ports and its steps in order, no other agent between them
(R88). -/
def loadProgram (words : List (Port × Word)) (s : State) : State :=
  { s with offered := s.offered ++ words, turns := s.turns ++ words.map fun pw => .agent pw.1 }

end Sys2Proof.Machine
end

