-- ==== Sys2Proof/Tests/Slice0.lean ====
section
/-!
SUPPORT. The model's own tests. Expected values come from the spec: the word tables of spec/30_encoding.md, the examples of
the command rules and the vectors of spec/95_test_vectors.md, named in each comment. The last part holds, for every
statement of Certificates/Slice0/Obligations.lean that has hypotheses, a state and operands that meet them.
-/

namespace Sys2Proof.Tests

open Sys2Proof Sys2Proof.Machine

/-! ## Helpers -/

/-- The next state, if there is one. -/
def stateOf : Host.Outcome State Fault Refusal → Option State
  | .next t => some t
  | .fault _ => none
  | .refused _ => none

/-- `s` with one word offered on a port and that agent's turn next. -/
def offering (p : Port) (w : Word) (s : State) : State := { s with offered := [(p, w)], turns := [.agent p] }

/-- One field of the state after a step of the agent of `p` with the word `w`. -/
def stepped {α : Type} (f : State → α) (p : Port) (w : Word) (s : State) : Option α :=
  (stateOf (step (offering p w s))).map f

/-- A start state of spec/95_test_vectors.md out of SensorOff: rail on, one block of mode 3, NOW = 0x0100. -/
def busy (q : SeqState) : State :=
  { State.reset with fsm := q, railEn := true, blk := [0, 0, 1], now := 0x100 }

/-- A consumer asleep in mode 3. -/
def asleep : State := { State.reset with sleeping := true, mode := 3 }

/-- A block halted by a fault. -/
def halted : State := { State.reset with fault := true, fcause := 2 }

/-! ## Well-formedness (R78): an ill-formed term for each check -/

theorem test_wf_block_zero : Instr.wellFormed Params.reference (.block 0) = false := by decide
theorem test_wf_block_high : Instr.wellFormed Params.reference (.block 4) = false := by decide
theorem test_wf_unblock_zero : Instr.wellFormed Params.reference (.unblock 0) = false := by decide
theorem test_wf_unblock_high : Instr.wellFormed Params.reference (.unblock 15) = false := by decide
theorem test_wf_rdblk_zero : Instr.wellFormed Params.reference (.rdblk 0) = false := by decide
theorem test_wf_rdblk_high : Instr.wellFormed Params.reference (.rdblk 4) = false := by decide
theorem test_wf_levels : Instr.wellFormed Params.reference (.block 1) = true ∧
    Instr.wellFormed Params.reference (.unblock 3) = true ∧ Instr.wellFormed Params.reference (.rdblk 2) = true := by decide

/-! ## Decoding: words of the table of R87's example and of section 9, written out field by field -/

/-- SIGNAL TransferDone: OP 0001, TAG 011, 25 reserved zeros (0x16000000). -/
theorem test_decode_signal :
    decode (.prod 0) (0b0001#4 ++ 0b011#3 ++ 0#25) = .ok (.signal .transferDone) ∧
    decode (.prod 0) 0x16000000 = .ok (.signal .transferDone) := by decide
theorem test_decode_haspend : decode .cons (0b0010#4 ++ 0#28) = .ok .haspend := by decide
theorem test_decode_take : decode .cons (0b0011#4 ++ 0#28) = .ok .take := by decide
/-- ADVANCE LinkLost: OP 0100, TAG 101 (0x4A000000). -/
theorem test_decode_advance :
    decode .cons (0b0100#4 ++ 0b101#3 ++ 0#25) = .ok (.advance .linkLost) ∧
    decode .cons 0x4A000000 = .ok (.advance .linkLost) := by decide
/-- ARM 1000: OP 0101, reserved 0000, OFF = 1000 (0x500003E8). -/
theorem test_decode_arm :
    decode .cons (0b0101#4 ++ 0b0000#4 ++ 1000#24) = .ok (.arm 1000) ∧ decode .cons 0x500003E8 = .ok (.arm 1000) ∧
    decode .cons 0x50FFFFFF = .ok (.arm 16777215) := by decide
theorem test_decode_disarm : decode .cons (0b0110#4 ++ 0#28) = .ok .disarm := by decide
/-- BLOCK 3: OP 0111, LVL 0011, 24 reserved zeros (0x73000000). -/
theorem test_decode_block :
    decode .cons (0b0111#4 ++ 0b0011#4 ++ 0#24) = .ok (.block 3) ∧ decode .cons 0x73000000 = .ok (.block 3) := by decide
theorem test_decode_unblock : decode .cons (0b1000#4 ++ 0b0001#4 ++ 0#24) = .ok (.unblock 1) := by decide
theorem test_decode_gate : decode .cons (0b1001#4 ++ 0#28) = .ok .gate := by decide
theorem test_decode_rdstat : decode .cons (0b1010#4 ++ 0#28) = .ok .rdstat := by decide
theorem test_decode_rdblk : decode .cons (0b1011#4 ++ 0b0010#4 ++ 0#24) = .ok (.rdblk 2) := by decide
theorem test_decode_clrstat : decode .cons (0b1100#4 ++ 0#28) = .ok .clrstat := by decide
theorem test_decode_tick : decode .clk (0b1101#4 ++ 0#28) = .ok .tick := by decide
theorem test_decode_cmpsvc : decode .cmp (0b1110#4 ++ 0#28) = .ok .cmpsvc := by decide

/-- Illegal opcodes, on every kind of port (R82). -/
theorem test_decode_illegal :
    decode .cons 0 = .error .illegalOp ∧ decode (.prod 0) 0xF0000000 = .error .illegalOp ∧
    decode .clk 0xFFFFFFFF = .error .illegalOp ∧ decode .cmp 0x0E000000 = .error .illegalOp := by decide
/-- Vectors M14, M18, T17, T18: BAD_PORT; a word both on a wrong port and with a reserved bit set is BAD_PORT (R84). -/
theorem test_decode_badPort :
    decode .clk 0x12000000 = .error .badPort ∧ decode (.prod 0) 0x20000000 = .error .badPort ∧
    decode .cons 0xD0000000 = .error .badPort ∧ decode .clk 0xE0000000 = .error .badPort ∧
    decode (.prod 0) 0x20000001 = .error .badPort := by decide
/-- Vectors M15, T16, T19 and the lowest reserved bit of formats N and L; RSV_BITS comes before BAD_TAG (R84). -/
theorem test_decode_rsvBits :
    decode (.prod 0) 0x11000000 = .error .rsvBits ∧ decode .cons 0x51000000 = .error .rsvBits ∧
    decode .cmp 0xE0000001 = .error .rsvBits ∧ decode .cons 0x20000001 = .error .rsvBits ∧
    decode .cons 0x73000001 = .error .rsvBits ∧ decode .cons 0x4D000000 = .error .rsvBits := by decide
/-- Vectors M16, M17, S5: tags 6 and 7. -/
theorem test_decode_badTag :
    decode (.prod 0) 0x1C000000 = .error .badTag ∧ decode (.prod 0) 0x1E000000 = .error .badTag ∧
    decode .cons 0x4E000000 = .error .badTag := by decide
/-- The table's numbering: bits above nbits are zero. -/
theorem test_decode_tableWord :
    decodeTableWord 32 0x500003E8 = some (.arm 1000) ∧ decodeTableWord 32 0xE0000000 = some .cmpsvc ∧
    decodeTableWord 32 0xF0000000 = none ∧ decodeTableWord 28 0x500003E8 = none := by decide
/-- Placed words run as the first command after reset: TICK counts (R163), BLOCK 1 blocks (R181). -/
theorem test_withFetchWord :
    (stateOf (step (State.reset.withFetchWord 32 0xD0000000))).map State.now = some 1 ∧
    (stateOf (step (State.reset.withFetchWord 32 0x71000000))).map State.blk = some [1, 0, 0] := by decide

/-! ## Assembler (R87, R88) -/

theorem test_asm_arm : assembleLine Params.reference "cons: arm 1000".toList = some [(.cons, 0x500003E8)] := by decide
theorem test_asm_signal :
    assembleLine Params.reference "prod0: signal TransferDone".toList = some [(.prod 0, 0x16000000)] := by decide
theorem test_asm_tick :
    assembleLine Params.reference "clk: tick x2".toList = some [(.clk, 0xD0000000), (.clk, 0xD0000000)] := by decide
theorem test_asm_refuses :
    assembleLine Params.reference "cons: arm 0x1000000".toList = none ∧
    assembleLine Params.reference "prod2: signal MR".toList = none ∧
    assembleLine Params.reference "cons: block 16".toList = none ∧
    assembleLine Params.reference "clk: tick x0".toList = none := by decide
/-- A loaded program's first step runs its first word. -/
theorem test_asm_load :
    (stateOf (step (loadProgram [(.prod 0, 0x12000000), (.cons, 0x30000000)] State.reset))).map
      (fun t => (t.slot, t.turns)) = some (.measureRequested, [.agent .cons]) := by decide

/-! ## Mailbox -/

/-- Vector M12: a producer's SIGNAL wakes a sleeping consumer. -/
theorem test_signal_wakes :
    stepped (fun t => (t.slot, t.sleeping, t.mode, t.out)) (.prod 0) 0x1A000000 asleep =
      some (.linkLost, false, 0, [.wake]) := by decide
/-- Vector M6: the drop counter saturates. -/
theorem test_signal_saturates :
    stepped (fun t => (t.slot, t.dropCnt)) (.prod 0) 0x12000000
      { State.reset with slot := .measureRequested, dropCnt := 0xFFFF } = some (.measureRequested, 0xFFFF) := by decide
/-- The example of R102. -/
theorem test_haspend :
    stepped State.res .cons 0x20000000 { State.reset with slot := .measureRequested } = some 1 ∧
    stepped State.res .cons 0x20000000 { State.reset with res := 7 } = some 0 := by decide
/-- Vector M9. -/
theorem test_take :
    stepped (fun t => (t.res, t.slot)) .cons 0x30000000 { State.reset with slot := .deferredTimerFired } =
      some (2, .idle) := by decide

/-! ## Sequencer: rows 2, 9b, 12 and 22 of section 2.2, and vector S1 -/

theorem test_advance_rows :
    stepped (fun t => (t.fsm, t.res, t.railEn, t.blk, t.cmp)) .cons 0x42000000 { State.reset with now := 0x100 } =
      some (.awaitingPowerUp, 1, true, [0, 0, 1], 0x4E8) ∧
    stepped (fun t => (t.fsm, t.wReject, t.res)) .cons 0x44000000
      { busy .awaitingPowerUp with replies := [.rejected] } = some (.awaitingPowerUp, true, 1) ∧
    stepped (fun t => (t.fsm, t.blk, t.out)) .cons 0x4A000000 (busy .awaitingPowerUp) =
      some (.sensorOff, [0, 0, 0],
        [.railOff, .unblock 3, .busReset, .logTransition .awaitingPowerUp .sensorOff]) ∧
    stepped (fun t => (t.fault, t.fcause, t.fsm, t.railEn, t.out)) .cons 0x4A000000
      { busy .awaitingPowerUp with blk := [0, 0, 0] } = some (true, 7, .awaitingPowerUp, true, []) :=
  ⟨by decide, by decide, by decide, by decide⟩
/-- Row 22, the symbolic DECODE applied to the drawn bytes. -/
theorem test_advance_row22 :
    (stateOf (exec (.advance .transferDone) { busy .awaitingReadCompletion with received := [[1, 2]] })).map State.out =
      some [.railOff, .unblock 3, .busReset, .publish (Config.decodeValue [1, 2]),
        .logTransition .awaitingReadCompletion .sensorOff] := rfl

/-! ## Deferred trigger -/

/-- Vector T1. -/
theorem test_arm :
    stepped (fun t => (t.cmp, t.armed, t.cmpPend)) .cons 0x500003E8 { State.reset with now := 0x100, cmpPend := true } =
      some (0x4E8, true, false) := by decide
/-- Vector T6: capped, and the deadline wraps. -/
theorem test_arm_capped :
    stepped (fun t => (t.cmp, t.wTrunc, t.out)) .cons 0x50FFFFFF { State.reset with now := 0x10 } =
      some (0xF, true, [.logTrunc 16777215 65535]) := by decide
/-- Vector T14. -/
theorem test_disarm :
    stepped (fun t => (t.armed, t.cmpPend)) .cons 0x60000000 { State.reset with cmpPend := true } =
      some (false, false) := by decide
/-- Vector T2. -/
theorem test_tick :
    stepped (fun t => (t.now, t.cmpPend, t.armed)) .clk 0xD0000000
      { State.reset with now := 0x4E7, cmp := 0x4E8, armed := true } = some (0x4E8, true, false) := by decide
/-- The counter wraps from 2^CLK_W - 1 to 0 (R163). -/
theorem test_tick_wraps : stepped State.now .clk 0xD0000000 { State.reset with now := 65535 } = some 0 := by decide
/-- Vector T8. -/
theorem test_cmpsvc :
    stepped (fun t => (t.cmpPend, t.slot, t.sleeping, t.mode, t.out)) .cmp 0xE0000000
      { State.reset with cmpPend := true, sleeping := true, mode := 2 } =
      some (false, .deferredTimerFired, false, 0, [.wake]) := by decide
/-- Vector T9: no step, and the word stays offered. -/
theorem test_cmpsvc_waits :
    stepped (fun t => (t.slot, t.fault, t.offered)) .cmp 0xE0000000 State.reset =
      some (.idle, false, [(.cmp, 0xE0000000)]) := by decide

/-! ## Power gate -/

/-- The example of R181. -/
theorem test_block :
    stepped (fun t => (t.blk, t.out, allowedMode t)) .cons 0x73000000 State.reset =
      some ([0, 0, 1], [.block 3], 2) := by decide
/-- BLOCK at the limit 2^BC_W - 1 faults with BLK_OVERFLOW (R181). -/
theorem test_block_overflow :
    stepped (fun t => (t.fcause, t.blk)) .cons 0x71000000 { State.reset with blk := [255, 0, 0] } =
      some (6, [255, 0, 0]) := by decide
/-- The example of R182. -/
theorem test_unblock :
    stepped (fun t => (t.blk, t.fault)) .cons 0x83000000 { State.reset with blk := [0, 0, 1] } =
      some ([0, 0, 0], false) := by decide
theorem test_unblock_underflow : stepped State.fcause .cons 0x83000000 State.reset = some 7 := by decide
/-- Vectors P1v and P3v. -/
theorem test_gate_sleeps :
    stepped (fun t => (t.sleeping, t.mode, t.res, t.out)) .cons 0x90000000 State.reset =
      some (true, 3, 0x3000, [.sleep 3]) ∧
    stepped State.res .cons 0x90000000 { State.reset with blk := [0, 1, 0] } = some 0x1000 := by decide
/-- The second example of R183. -/
theorem test_gate_takes :
    stepped (fun t => (t.slot, t.fsm, t.res)) .cons 0x90000000 { State.reset with slot := .measureRequested } =
      some (.idle, .awaitingPowerUp, 0x111) := by decide
/-- Vector P6v: the sleeping consumer waits. -/
theorem test_sleeping_waits :
    stepped (fun t => (t.sleeping, t.res, t.offered.length)) .cons 0x20000000 asleep = some (true, 0, 1) := by decide

/-! ## Diagnostics -/

/-- The example of R200. -/
theorem test_rdstat :
    stepped State.res .cons 0xA0000000
      { State.reset with
        fsm := .awaitingPowerUp, slot := .transferDone, armed := true, railEn := true, dropCnt := 2 } =
      some 0x000200AD := by decide
/-- The status word of R200 with the other flags set: DROP_CNT 2, W_REJECT, W_INVALID, W_TRUNC, CMP_PEND. -/
theorem test_rdstat_flags :
    stepped State.res .cons 0xA0000000
      { State.reset with wReject := true, wInvalid := true, wTrunc := true, cmpPend := true, dropCnt := 2 } =
      some 0x00020740 := by decide
/-- The example of R201. -/
theorem test_rdblk : stepped State.res .cons 0xB3000000 { State.reset with blk := [5, 6, 1] } = some 1 := by decide
/-- The example of R202. -/
theorem test_clrstat :
    stepped statusWord .cons 0xC0000000 { State.reset with wInvalid := true, dropCnt := 2 } = some 0 := by decide

/-! ## Witnesses: a state and operands that meet each statement's hypotheses -/

/-- Small legal parameters at the lower ends of R6. -/
def smallest : Params where
  clkW      := 2
  tickRate  := .reference
  maxDelay  := 1
  m         := 2
  bcW       := 1
  nprod     := 1
  tSettleUs := 0
  writeCmd  := []
  readLen   := 0

/-- Legal parameters at the upper ends of R6. -/
def largest : Params where
  clkW      := 32
  tickRate  := .other 0
  maxDelay  := 4294967295
  m         := 16
  bcW       := 32
  nprod     := 9
  tSettleUs := 16777215
  writeCmd  := []
  readLen   := 0

theorem test_witness_legal : Params.reference.Legal ∧ smallest.Legal ∧ largest.Legal := by decide
theorem test_witness_resetTurn :
    let s := { halted with turns := [.reset 65535 0 [] []] }
    s.turns = .reset 65535 0 [] [] :: [] ∧ 65535 < 2 ^ s.cfg.clkW ∧ 0 < 2 ^ s.cfg.clkW := by decide
/-- Each clause of ResetLeavesAnswersFree: after a read begun with no block held was rejected and so faulted, the answer it
drew still stands in the list; the reset that follows may fix the other answer, or none. -/
theorem test_witness_resetAnswers :
    (let s := { busy .awaitingWriteCompletion with blk := [0, 0, 0], replies := [.rejected] }
     (stateOf (exec (.advance .transferDone) s)).map (fun t => (t.fcause, t.replies)) = some (7, [.rejected])) ∧
    (let s := { halted with replies := [.rejected], turns := [.reset 0 0 [.accepted] [[0x12, 0x34]]] }
     s.turns = .reset 0 0 [.accepted] [[0x12, 0x34]] :: [] ∧ [(0x12 : Byte), 0x34].length = s.cfg.readLen ∧
     (stateOf (step s)).map nextReply = some .accepted) ∧
    (stateOf (step { halted with replies := [.rejected], turns := [.reset 0 0 [] []] })).map State.replies = some [] := by
  decide
/-- For ResetMeetsInvariant, StepKeepsInvariant and StepKeepsParameters: an invariant state and its next one. -/
theorem test_witness_invariant :
    (offering .clk 0xD0000000 { State.reset with now := 65535, cmp := 0, armed := true }).Inv ∧
    (∃ t, step (offering .clk 0xD0000000 { State.reset with now := 65535, cmp := 0, armed := true }) = .next t) :=
  ⟨by decide, _, rfl⟩
/-- The invariant on a faulted state, a sleeping state, and one with counters at their limits. -/
theorem test_witness_invariant_edges :
    halted.Inv ∧ asleep.Inv ∧ State.Inv { State.reset with now := 65535, cmp := 65535, blk := [255, 255, 255] } :=
  ⟨by decide, by decide, by decide⟩
theorem test_witness_decodeOfEncode :
    mayIssue .cons (opcodeOfInstr (.block 15)) = true ∧ mayIssue (.prod 7) (opcodeOfInstr (.signal .linkLost)) = true ∧
    mayIssue .clk (opcodeOfInstr .tick) = true ∧ mayIssue .cmp (opcodeOfInstr .cmpsvc) = true := by decide
theorem test_witness_encodeOfDecode : decode .cons 0x7F000000 = .ok (.block 15) := by decide
/-- Each outcome of DecodeChecksInOrder, at the neighbours where its conditions meet (halted: test_witness_halted). -/
theorem test_witness_decodeChecks :
    verdict asleep .cons 0 = .wait ∧ verdict State.reset .cons 0 = .fault .illegalOp ∧
    verdict State.reset .cmp 0xE0000000 = .wait ∧ verdict State.reset .cmp 0xE0000001 = .fault .rsvBits ∧
    verdict { State.reset with cmpPend := true } .cmp 0xE0000000 = .run .cmpsvc ∧
    verdict State.reset .cons 0x74000000 = .run (.block 4) ∧
    (stateOf (exec (.block 4) State.reset)).map State.fcause = some 5 := by decide
/-- The checks of the word alone, likewise. -/
theorem test_witness_decodeWords :
    decode .cons 0x0FFFFFFF = .error .illegalOp ∧ decode (.prod 0) 0x10000000 = .ok (.signal .idle) ∧
    decode (.prod 0) 0x1A000000 = .ok (.signal .linkLost) ∧ decode (.prod 0) 0x1C000000 = .error .badTag ∧
    decode (.prod 0) 0x1DFFFFFF = .error .rsvBits ∧ decode .clk 0x1C000000 = .error .badPort ∧
    decode .cons 0x5F000000 = .error .rsvBits ∧ decode .cons 0x70000000 = .ok (.block 0) := by decide
theorem test_witness_portRights :
    decode .cons 0x10000000 = .ok (.signal .idle) ∧ decode (.prod 3) 0x1A000000 = .ok (.signal .linkLost) ∧
    decode .clk 0xD0000000 = .ok .tick ∧ decode .cmp 0xE0000000 = .ok .cmpsvc ∧
    decode (.prod 0) (encode .tick) = .error .badPort ∧ decode .clk (encode .cmpsvc) = .error .badPort := by decide
/-- Both clauses of ByteBusIsLittleEndian: the word 0x500003E8 in bytes E8 03 00 50, and accesses of 3, 5 and no bytes. -/
theorem test_witness_byteBus :
    [(0x500003E8 : Word).extractLsb' 0 8, (0x500003E8 : Word).extractLsb' 8 8, (0x500003E8 : Word).extractLsb' 16 8,
      (0x500003E8 : Word).extractLsb' 24 8] = [0xE8, 0x03, 0x00, 0x50] ∧
    (stateOf (step { State.reset with turns := [.write .cons [0xE8, 0x03, 0x00, 0x50]] })).map State.offered =
      some [(.cons, 0x500003E8)] ∧
    stateOf (step { State.reset with turns := [.write .cons [0xE8, 0x03, 0x00]] }) = none ∧
    stateOf (step { State.reset with turns := [.write .cons [0xE8, 0x03, 0x00, 0x50, 0]] }) = none ∧
    stateOf (step { State.reset with turns := [.write .cons []] }) = none ∧
    portExists State.reset.cfg .cons = true ∧ State.reset.fault = false := by decide
theorem test_witness_stepRuns :
    let s := offering (.prod 1) 0x1A000000 asleep
    s.turns = .agent (.prod 1) :: [] ∧ s.fault = false ∧ portExists s.cfg (.prod 1) = true ∧
    wordOffered (.prod 1) s.offered = some 0x1A000000 ∧ decode (.prod 1) 0x1A000000 = .ok (.signal .linkLost) ∧
    ¬((.prod 1 : Port) = .cons ∧ s.sleeping = true) ∧ ¬(Instr.signal .linkLost = .cmpsvc ∧ s.cmpPend = false) := by decide
theorem test_witness_malformed :
    let s := offering .cons 0 State.reset
    s.turns = .agent .cons :: [] ∧ s.fault = false ∧ portExists s.cfg .cons = true ∧
    wordOffered .cons s.offered = some 0 ∧ decode .cons 0 = .error .illegalOp ∧ s.sleeping = false := by decide
/-- For SleepingConsumerWaits: a sleeping state, and another port. -/
theorem test_witness_sleepingWaits :
    asleep.sleeping = true ∧ (Port.clk ≠ .cons) ∧ verdict asleep .clk 0xD0000000 = .run .tick := by decide
/-- For WaitingAgentKeepsItsWord: both ways to wait. -/
theorem test_witness_waits :
    (let s := offering .cons 0x20000000 asleep
     s.turns = .agent .cons :: [] ∧ s.fault = false ∧ portExists s.cfg .cons = true ∧
     wordOffered .cons s.offered = some 0x20000000 ∧ s.sleeping = true) ∧
    (let s := offering .cmp 0xE0000000 State.reset
     s.turns = .agent .cmp :: [] ∧ s.fault = false ∧ portExists s.cfg .cmp = true ∧
     wordOffered .cmp s.offered = some 0xE0000000 ∧ s.cmpPend = false) := by decide
/-- Each clause of HaltedUntilReset: an agent, a bus access, nothing, a reset. -/
theorem test_witness_halted :
    halted.fault = true ∧ halted.turns = [] ∧ stateOf (step halted) = none ∧
    stateOf (step { halted with turns := [.agent .cons] }) = none ∧
    stateOf (step { halted with turns := [.write .cons [0, 0, 0, 0]] }) = none ∧
    (stateOf (step { halted with turns := [.reset 0 0 [] []] })).map State.fcause = some 0 := by decide
/-- Both kinds of port of SignalPosts. -/
theorem test_witness_signalPorts :
    State.reset.port = .cons ∧ State.port { asleep with port := .prod 0 } = .prod 0 := by decide
/-- For FirstPostSurvives, its first clause: a match, its service, and a later signal of a producer, which is dropped. -/
theorem test_witness_posts :
    (let cs : List (Port × Instr) := [(.cons, .arm 0), (.clk, .tick), (.cmp, .cmpsvc), (.prod 1, .signal .linkLost)]
     (∀ c ∈ cs, c.2 ≠ .take ∧ c.2 ≠ .gate ∧ c.2 ≠ .clrstat) ∧ State.reset.slot = .idle ∧
     (eventsPosted cs State.reset).filter (fun e => e != .idle) = [.deferredTimerFired, .linkLost] ∧
     (stateOf (runOn (cs ++ [(.cons, .take)]) State.reset)).map (fun t => (t.res, t.dropCnt, t.slot)) =
       some (2, 1, .idle)) := by decide
/-- Its second clause: awake with producers' signals, asleep with none. -/
theorem test_witness_signals :
    State.reset.sleeping = false ∧ asleep.slot = .idle ∧
    (∀ pe ∈ [((.cons, .linkLost) : Port × Event)], ∀ k, pe.1 ≠ .prod k) ∧
    (stateOf (runOn [(.prod 0, .signal .idle), (.prod 1, .signal .linkLost), (.cons, .take)] State.reset)).map
      (fun t => (t.res, t.dropCnt)) = some (5, 0) :=
  ⟨by decide, by decide, by simp, by decide⟩
/-- For PendingEventIsKept: a full slot, and a SIGNAL that is dropped. -/
theorem test_witness_pendingKept :
    (stateOf (exec (.signal .linkLost) { State.reset with slot := .transferDone })).map State.slot =
      some .transferDone := by decide
theorem test_witness_startAcquisition :
    State.reset.fsm = .sensorOff ∧ blkAt State.reset (State.reset.cfg.m - 1) ≠ 2 ^ State.reset.cfg.bcW - 1 ∧
    blkAt { State.reset with blk := [0, 0, 254] } (State.reset.cfg.m - 1) ≠ 2 ^ State.reset.cfg.bcW - 1 := by decide
/-- For AdvanceBeginsWrite, AdvanceBeginsRead: the state, and both answers; an accepted read needs no block (row 16a). -/
theorem test_witness_busAnswers :
    (busy .awaitingPowerUp).fsm = .awaitingPowerUp ∧ (busy .awaitingWriteCompletion).fsm = .awaitingWriteCompletion ∧
    blkAt (busy .awaitingWriteCompletion) ((busy .awaitingWriteCompletion).cfg.m - 1) ≠ 0 ∧
    nextReply { busy .awaitingPowerUp with replies := [.accepted] } = .accepted ∧
    nextReply { busy .awaitingPowerUp with replies := [.rejected] } = .rejected ∧
    (stateOf (exec (.advance .transferDone)
      { busy .awaitingWriteCompletion with blk := [0, 0, 0], replies := [.accepted] })).map
        (fun t => (t.fsm, t.fault)) = some (.awaitingReadCompletion, false) := by decide
/-- For AdvanceTearsDown: every pair of the list, with a block held. -/
theorem test_witness_tearsDown :
    (∀ p ∈ teardownPairs, (busy p.1).fsm = p.1 ∧ blkAt (busy p.1) ((busy p.1).cfg.m - 1) ≠ 0) ∧
    ((busy .awaitingPowerUp).fsm, Event.linkLost) ∈ teardownPairs := by decide
/-- For AdvancePublishes, and the LinkLost clause of AdvanceTearsDown. -/
theorem test_witness_publishes :
    (busy .awaitingReadCompletion).fsm = .awaitingReadCompletion ∧
    blkAt (busy .awaitingReadCompletion) ((busy .awaitingReadCompletion).cfg.m - 1) ≠ 0 ∧
    State.reset.fsm = .sensorOff := by decide
/-- For UnmatchedPairIsLogged: R138's ten pairs, one of them in the reset state. -/
theorem test_witness_unmatched :
    unmatchedPairs.length = 10 ∧ (State.reset.fsm, Event.transferDone) ∈ unmatchedPairs ∧
    ((busy .awaitingReadCompletion).fsm, Event.deferredTimerFired) ∈ unmatchedPairs := by decide
/-- Each clause of AdvanceCounterFaults: the overflow, and the three ways to an underflow. -/
theorem test_witness_advanceFaults :
    blkAt { State.reset with blk := [0, 0, 255] } (State.reset.cfg.m - 1) = 2 ^ State.reset.cfg.bcW - 1 ∧
    blkAt { busy .awaitingPowerUp with blk := [0, 0, 0] } (State.reset.cfg.m - 1) = 0 ∧
    ((busy .awaitingPowerUp).fsm, Event.linkLost) ∈ teardownPairs ∧
    (busy .awaitingReadCompletion).fsm = .awaitingReadCompletion ∧
    nextReply { busy .awaitingWriteCompletion with blk := [0, 0, 0], replies := [.rejected] } = .rejected := by decide
/-- For TransitionLoggedExactly and AdvanceReturnsState: an ADVANCE without a fault, and one with. -/
theorem test_witness_advanceOutcomes :
    (stateOf (exec (.advance .linkLost) (busy .awaitingPowerUp))).map State.fault = some false ∧
    (stateOf (exec (.advance .linkLost) { busy .awaitingPowerUp with blk := [0, 0, 0] })).map State.fault = some true ∧
    (busy .awaitingPowerUp).fault = false := by decide
/-- For PairedAdvanceNeverFaults, PairingIsKept and SleepDepthFollowsSequencer: paired states in and out of SensorOff. -/
theorem test_witness_paired :
    State.reset.Inv ∧ State.reset.Paired ∧ (busy .awaitingPowerUp).Inv ∧ (busy .awaitingPowerUp).Paired ∧
    State.reset.fault = false ∧ (busy .awaitingPowerUp).fault = false := by decide
theorem test_witness_pairingKept :
    blocksDeepest State.reset.cfg (.block 2) = false ∧ blocksDeepest State.reset.cfg (.advance .measureRequested) = false ∧
    blocksDeepest State.reset.cfg (.block 3) = true ∧
    (stateOf (exec (.advance .measureRequested) State.reset)).map State.fsm = some .awaitingPowerUp := by decide
/-- For SleepDepthFollowsSequencer: both depths, no other block held. -/
theorem test_witness_sleepDepth :
    blkAt State.reset 1 = 0 ∧ blkAt State.reset 2 = 0 ∧ blkAt (busy .awaitingPowerUp) 1 = 0 ∧
    blkAt (busy .awaitingPowerUp) 2 = 0 ∧ allowedMode State.reset = 3 ∧ allowedMode (busy .awaitingPowerUp) = 2 := by decide
theorem test_witness_commutes : State.reset.sleeping = false := by decide
theorem test_witness_cmpsvc : State.cmpPend { State.reset with cmpPend := true } = true := by decide
/-- For DeadlineFiresOnTime, its first clause: a state just armed at the top of the counter, and commands that leave the
deadline. -/
theorem test_witness_justArmed :
    (let s := { State.reset with now := 65535, cmp := 0, armed := true }
     s.cfg.Legal ∧ s.now < 2 ^ s.cfg.clkW ∧ 1 ≤ s.cfg.maxDelay ∧ s.armed = true ∧ s.cmpPend = false ∧
     s.cmp = (s.now + 1) % 2 ^ s.cfg.clkW) ∧
    (∀ i ∈ [Instr.signal .idle, .tick, .cmpsvc, .advance .linkLost], leavesDeadline i = true) := by decide
/-- ARM 1: no TICK is too few (k < d), one is enough (d <= k), and a CMPSVC serves the request. -/
theorem test_witness_deadline :
    State.reset.cfg.Legal ∧ State.now { State.reset with now := 65535 } < 2 ^ State.reset.cfg.clkW ∧
    (stateOf (execAll [.arm 1, .rdstat] { State.reset with now := 65535 })).map (fun t => (t.armed, t.cmpPend)) =
      some (true, false) ∧
    (stateOf (execAll [.arm 1, .tick] { State.reset with now := 65535 })).map (fun t => (t.now, t.armed, t.cmpPend)) =
      some (0, false, true) ∧
    (stateOf (execAll [.arm 1, .tick, .cmpsvc] State.reset)).map (fun t => (t.armed, t.cmpPend)) = some (false, false) := by
  decide
/-- The settle deadline, by ADVANCE and by GATE, where it is one tick long. -/
theorem test_witness_settle :
    (let s := { State.reset with cfg := { Params.reference with tSettleUs := 0 }, slot := .measureRequested }
     s.cfg.Legal ∧ s.now < 2 ^ s.cfg.clkW ∧ s.fsm = .sensorOff ∧ blkAt s (s.cfg.m - 1) ≠ 2 ^ s.cfg.bcW - 1 ∧
     s.slot = .measureRequested ∧
     (stateOf (execAll [.advance .measureRequested, .tick] s)).map State.cmpPend = some true ∧
     (stateOf (execAll [.gate, .tick] s)).map State.cmpPend = some true) := by decide
theorem test_witness_noMatch : State.reset.armed = false ∧ State.reset.now < 2 ^ State.reset.cfg.clkW := by decide
/-- The cases of BlockAdds, UnblockRemoves and RdblkReadsCount: the ends of the legal levels and of a counter. -/
theorem test_witness_levels :
    LegalLevel State.reset.cfg 1 ∧ LegalLevel State.reset.cfg 3 ∧
    blkAt { State.reset with blk := [254, 0, 0] } 1 ≠ 2 ^ State.reset.cfg.bcW - 1 ∧
    blkAt { State.reset with blk := [255, 0, 0] } 1 = 2 ^ State.reset.cfg.bcW - 1 ∧
    blkAt { State.reset with blk := [0, 0, 1] } 3 ≠ 0 ∧ blkAt State.reset 3 = 0 := by decide
/-- Their BAD_LEVEL case: both ways, each at its boundary, and the two legal neighbours, which do not fault. -/
theorem test_witness_badLevel :
    State.reset.cfg.m ≤ (4 : BitVec 4).toNat ∧
    (stateOf (exec (.block 0) State.reset)).map State.fcause = some 5 ∧
    (stateOf (exec (.rdblk 4) State.reset)).map State.fcause = some 5 ∧
    (stateOf (exec (.rdblk 1) State.reset)).map State.fcause = some 0 ∧
    (stateOf (exec (.block 3) State.reset)).map State.fcause = some 0 := by decide
/-- Each clause of AllowedModeIsDeepestUnblocked: nothing allowed, something, everything. -/
theorem test_witness_allowedMode :
    allowedMode { State.reset with blk := [1, 0, 0] } = 0 ∧ allowedMode { State.reset with blk := [0, 1, 0] } = 1 ∧
    allowedMode State.reset = 3 := by decide
/-- Each clause of GateRunsLoopBody: no mode allowed, a mode allowed, an event taken with and without a fault. -/
theorem test_witness_gate :
    (stateOf (exec .gate { State.reset with blk := [1, 0, 0] })).map State.sleeping = some false ∧
    (stateOf (exec .gate State.reset)).map State.sleeping = some true ∧
    (stateOf (exec .gate { State.reset with slot := .linkLost })).map State.res = some 0x105 ∧
    (stateOf (exec .gate { busy .awaitingPowerUp with slot := .linkLost, blk := [0, 0, 0] })).map
      (fun t => (t.fault, t.slot)) = some (true, .linkLost) := by decide
/-- For OnlyInterruptsWake: a producer's SIGNAL of Idle and a CMPSVC each wake. -/
theorem test_witness_wakes :
    asleep.sleeping = true ∧
    (stateOf (exec (.signal .idle) { asleep with port := .prod 0 })).map State.sleeping = some false ∧
    (stateOf (exec .cmpsvc { asleep with cmpPend := true })).map State.sleeping = some false := by decide
/-- For ReadsAreIdempotent: the three reads answer a next state. -/
theorem test_witness_reads :
    (∃ t, exec .haspend State.reset = .next t) ∧ (∃ t, exec .rdstat State.reset = .next t) ∧
    LegalLevel State.reset.cfg 3 ∧ (∃ t, exec (.rdblk 3) State.reset = .next t) :=
  ⟨⟨_, rfl⟩, ⟨_, rfl⟩, by decide, ⟨_, rfl⟩⟩
/-- For FaultsArePrecise and MalformedWordFaults: a step that faults by its word, and one that faults in execution. -/
theorem test_witness_precise :
    stepped (fun t => (t.fault, t.fcause, t.turns)) .cons 0 State.reset = some (true, 1, []) ∧
    stepped (fun t => (t.fault, t.fcause, t.turns)) .cons 0x83000000 State.reset = some (true, 7, []) := by decide
/-- Each cause of FaultCausesByCommand. -/
theorem test_witness_causes :
    (stateOf (exec (.unblock 4) State.reset)).map State.fcause = some 5 ∧
    (stateOf (exec (.block 1) { State.reset with blk := [255, 0, 0] })).map State.fcause = some 6 ∧
    (stateOf (exec (.unblock 1) State.reset)).map State.fcause = some 7 := by decide
/-- For the statements over every command that answers a next state: one that writes RES alone (HASPEND), one that leaves RES
(TICK), and one that raises a warning (ADVANCE of an unmatched pair). -/
theorem test_witness_frames :
    (∃ t, exec .haspend State.reset = .next t) ∧ (∃ t, exec .tick State.reset = .next t) ∧
    (stateOf (exec (.advance .transferError) State.reset)).map State.wInvalid = some true :=
  ⟨⟨_, rfl⟩, ⟨_, rfl⟩, by decide⟩

/-- Host.Core's machine is the model's. -/
theorem test_core : core.reset = State.reset ∧ core.step = step := ⟨rfl, rfl⟩

end Sys2Proof.Tests
end

/-!
PROOF. The mailbox commands (spec/40_mailbox.md R100 to R103): how the words of a format decode on every port, and the
settled statements O16, O17 and O18.
-/

namespace Sys2Proof.Machine

/-! ## Words of formats N and T on every port (R73, R74, R84) -/

/-- The commands the consumer alone may issue: all but SIGNAL, TICK and CMPSVC (R80, R81). -/
theorem mayIssue_eq_consumerOnly {op : Opcode} (hs : op ≠ .signal) (ht : op ≠ .tick) (hc : op ≠ .cmpsvc) (p : Port) :
    mayIssue p op = consumerOnly p := by
  cases p <;> simp [mayIssue, consumerOnly, hs, ht, hc]

/-- A format-N opcode whose operands are those of one command decodes as the rule of that command says. -/
theorem encodedN_of_opcode {op : Opcode} {ports : Port → Bool} {i : Instr} (hformat : formatOf op = .formatN)
    (hports : ∀ p, mayIssue p op = ports p) (hoperands : ∀ w, decodeOperands op w = .ok i) :
    EncodedN (opcodeBits op).toNat ports i := by
  intro p w hw
  have hreserved : w &&& reservedMask .formatN = 0 ↔ w.toNat % 2 ^ 28 = 0 := reserved_clear_iff .formatN w
  simp only [decode_at hw, hformat, hports, hoperands, ne_eq, hreserved]

/-- A format-T opcode decodes as the rule of its command says. -/
theorem encodedT_of_opcode {op : Opcode} {ports : Port → Bool} {k : Event → Instr} (hformat : formatOf op = .formatT)
    (hports : ∀ p, mayIssue p op = ports p) (hoperands : ∀ w, decodeOperands op w = withTag w k) :
    EncodedT (opcodeBits op).toNat ports k := by
  intro p w hw
  have hreserved : w &&& reservedMask .formatT = 0 ↔ w.toNat % 2 ^ 25 = 0 := reserved_clear_iff .formatT w
  simp only [decode_at hw, hformat, hports, hoperands, ne_eq, hreserved]
  refine ite_congr rfl (fun _ => rfl) fun _ => ite_congr rfl (fun _ => rfl) fun _ => ?_
  rw [withTag, eventOfTag_tagField]
  rcases w.toNat / 2 ^ 25 % 8 with _ | _ | _ | _ | _ | _ | _ <;> rfl

/-! ## The effects of the mailbox commands -/

/-- The drop count after a post, in one condition: it moves only for a dropped event and below saturation (R100). -/
theorem dropCnt_after_post (e : Event) (s : State) :
    (post e s).dropCnt =
      if e = .idle ∨ s.slot = .idle ∨ s.dropCnt = 0xFFFF then s.dropCnt else s.dropCnt + 1 := by
  simp only [post_eq, satSucc, ← or_assoc]
  by_cases hkept : e = .idle ∨ s.slot = .idle <;> simp [hkept]

/-- `Post(e)` writes SLOT and DROP_CNT and nothing else, saturation written out (R100). -/
theorem post_saturating (e : Event) (s : State) :
    post e s =
      { s with
        slot := if s.slot = .idle then e else s.slot
        dropCnt := if e = .idle ∨ s.slot = .idle ∨ s.dropCnt = 0xFFFF then s.dropCnt else s.dropCnt + 1 } := by
  rw [← dropCnt_after_post, post_eq]

/-- PEND as a result word (R24, R102). -/
theorem flagWord_pend (s : State) : flagWord (pend s) = if s.slot = .idle then 0 else 1 := by
  rw [flagWord, pend]
  cases s.slot <;> rfl

/-- Settles O16: the port decides whether the interrupt's wake follows the post. -/
theorem signalPosts : Obligations.SignalPosts := by
  refine ⟨encodedT_of_opcode (op := .signal) rfl (fun p => by cases p <;> rfl) fun _ => rfl, fun e s => ?_⟩
  have hexec : exec (.signal e) s =
      .next (if isProducer s.port then wakeIfSleeping (post e s) else post e s) := rfl
  rw [hexec, post_saturating]
  cases s.port with
  | prod k =>
    cases s.sleeping with
    | true => simp [isProducer, wakeIfSleeping_eq]
    | false => simp [isProducer, wakeIfSleeping_eq]
  | cons => simp [isProducer]
  | clk => simp [isProducer]
  | cmp => simp [isProducer]

/-- Settles O17: HASPEND is a format-N command of the consumer, and its result word is PEND. -/
theorem haspendReadsPending : Obligations.HaspendReadsPending := by
  refine ⟨encodedN_of_opcode (op := .haspend) rfl (mayIssue_eq_consumerOnly (by decide) (by decide) (by decide))
    fun _ => rfl, fun s => ?_⟩
  rw [← flagWord_pend]
  rfl

/-- Settles O18: TAKE is a format-N command of the consumer, and its result word is the tag of the slot before it. -/
theorem takeReadsAndClears : Obligations.TakeReadsAndClears := by
  refine ⟨encodedN_of_opcode (op := .take) rfl (mayIssue_eq_consumerOnly (by decide) (by decide) (by decide))
    fun _ => rfl, fun s => ?_⟩
  have hexec : exec .take s = .next { clearSlot s with res := tagWord s.slot } := rfl
  rw [hexec]
  cases s.slot <;> rfl

end Sys2Proof.Machine

/-!
PROOF. The command ADVANCE (spec/41_scheduler.md R120 to R132): its next state from the table's entry, and the settled
statements O30, O22, O23, O26 and O28.
-/

namespace Sys2Proof.Machine

/-! ## ADVANCE from the table's entry -/

@[simp] theorem seqWord_sensorOff : seqWord .sensorOff = 0 := rfl

@[simp] theorem seqWord_awaitingPowerUp : seqWord .awaitingPowerUp = 1 := rfl

/-- Entering a state appends the transition's log exactly when the state changes (R121, R132). -/
theorem enterState_eq (before after : SeqState) (s : State) :
    enterState before after s =
      { s with
        fsm := after
        out := s.out ++ if after = before then [] else [.logTransition before after] } := by
  by_cases hsame : after = before <;> simp [enterState, hsame, emit]

/-- ADVANCE where the table's entry raises no fault: the entry's effects, then FSM, the log and RES (R120, R121, R132). -/
theorem exec_advance_of_entry {e : Event} {s u : State} {q : SeqState} (hentry : tableEntry s.fsm e s = .ok (q, u)) :
    exec (.advance e) s = .next
      { u with
        fsm := q
        res := seqWord q
        out := u.out ++ if q = s.fsm then [] else [.logTransition s.fsm q] } := by
  have hexec : exec (.advance e) s = finish s (advanceResult (advanceCore e s)) := rfl
  rw [hexec, advanceCore_of_ok hentry, enterState_eq]
  rfl

/-- Idle is a self-loop of every state (R122). -/
theorem tableEntry_idle (q : SeqState) (s : State) : tableEntry q .idle s = .ok (q, s) := by cases q <;> rfl

/-- The unmatched pairs of R138 follow the default policy (R131). -/
theorem tableEntry_of_unmatched {q : SeqState} {e : Event} (hpair : (q, e) ∈ unmatchedPairs) (s : State) :
    tableEntry q e s = .ok (q, logInvalid q e s) := by
  have hall : ∀ p ∈ unmatchedPairs, tableEntry p.1 p.2 s = .ok (p.1, logInvalid p.1 p.2 s) := by
    simp [unmatchedPairs, tableEntry, unmatched]
  exact hall (q, e) hpair

/-- The teardown pairs of R127, R129 and R130 share one entry. -/
theorem tableEntry_of_teardown {q : SeqState} {e : Event} (hpair : (q, e) ∈ teardownPairs) (s : State) :
    tableEntry q e s = tearDownToOff q s := by
  have hall : ∀ p ∈ teardownPairs, tableEntry p.1 p.2 s = tearDownToOff p.1 s := by
    simp [teardownPairs, tableEntry]
  exact hall (q, e) hpair

/-! ## The settled statements -/

/-- Settles O30: a step without FAULT is no fault entry, so `advanceCore_inv` gives the entry's own outputs and the log. -/
theorem transitionLoggedExactly : Obligations.TransitionLoggedExactly := by
  intro e s t _ hexec hfault
  rcases exec_cases hexec with ⟨c, rfl, -⟩ | ⟨u, hcore, rfl⟩
  · simp at hfault
  · obtain ⟨⟨-, -, -, hout⟩, -⟩ := advanceCore_inv hcore
    exact hout

/-- Settles O22: the entry of Idle has no effect and stays, so RES alone is written. -/
theorem advanceIdleIsSelfLoop : Obligations.AdvanceIdleIsSelfLoop := by
  intro s
  rw [exec_advance_of_entry (tableEntry_idle s.fsm s), if_pos rfl, List.append_nil]
  cases s.fsm <;> rfl

/-- Settles O23: below the limit the block succeeds, and `armCore_eq` says what the settle deadline writes. -/
theorem advanceStartsAcquisition : Obligations.AdvanceStartsAcquisition := by
  intro s hoff (hbelow : blkAt s (deepest s.cfg) ≠ 2 ^ s.cfg.bcW - 1)
  have hentry : tableEntry s.fsm .measureRequested s = startAcquisition s := by rw [hoff]; rfl
  rw [startAcquisition_eq, if_neg hbelow, armCore_eq] at hentry
  rw [exec_advance_of_entry hentry]
  by_cases hcapped : s.cfg.maxDelay < ticksOf s.cfg s.cfg.tSettleUs <;>
    simp [hoff, hcapped, effectiveDelay, deepest]

/-- Settles O26: with a block held the teardown releases it; from SensorOff it has none to release. -/
theorem advanceTearsDown : Obligations.AdvanceTearsDown := by
  refine ⟨fun e s hpair (hheld : blkAt s (deepest s.cfg) ≠ 0) => ?_, fun s hoff => ?_⟩
  · have hon : s.fsm ≠ .sensorOff := teardownPairs_ne_off hpair
    have hentry := tableEntry_of_teardown hpair s
    rw [tearDownToOff_eq hon, if_neg hheld] at hentry
    rw [exec_advance_of_entry hentry]
    simp [Ne.symm hon, deepest]
  · have hentry : tableEntry s.fsm .linkLost s = tearDownToOff .sensorOff s := by rw [hoff]; rfl
    rw [tearDownToOff_off] at hentry
    rw [exec_advance_of_entry hentry]
    simp [hoff]

/-- Settles O28: the default policy stays in the state, so no transition is logged after the warning. -/
theorem unmatchedPairIsLogged : Obligations.UnmatchedPairIsLogged := by
  intro e s hpair
  rw [exec_advance_of_entry (tableEntry_of_unmatched hpair s), if_pos rfl, List.append_nil]
  cases s.fsm <;> rfl

end Sys2Proof.Machine

/-!
PROOF. The deferred-trigger commands (spec/42_deferred_trigger.md R160 to R164, R167): the words of format A on every port,
what the comparator's agent may do, and the settled statements O34, O35, O36 and O37.
-/

namespace Sys2Proof.Machine

/-! ## Words of format A on every port (R76, R84) -/

/-- A format-A opcode whose operand is the offset field decodes as the rule of its command says. -/
theorem encodedA_of_opcode {op : Opcode} {ports : Port → Bool} {k : BitVec 24 → Instr} (hformat : formatOf op = .formatA)
    (hports : ∀ p, mayIssue p op = ports p) (hoperands : ∀ w, decodeOperands op w = .ok (k (offField w))) :
    EncodedA (opcodeBits op).toNat ports k := by
  intro p w hw
  have hreserved : w &&& reservedMask .formatA = 0 ↔ w.toNat / 2 ^ 24 % 16 = 0 := reserved_clear_iff .formatA w
  have hoffset : offField w = BitVec.ofNat 24 (w.toNat % 2 ^ 24) := by
    rw [← offField_toNat, BitVec.ofNat_toNat, BitVec.setWidth_eq]
  simp only [decode_at hw, hformat, hports, hoperands, ne_eq, hreserved, hoffset]

/-! ## The counter clock and the comparator (R80, R84, R164) -/

/-- TICK is the counter clock's own command (R80, R222). -/
theorem mayIssue_tick (p : Port) : mayIssue p .tick = decide (p = .clk) := by cases p <;> rfl

/-- CMPSVC is the comparator's own command (R80, R222). -/
theorem mayIssue_cmpsvc (p : Port) : mayIssue p .cmpsvc = decide (p = .cmp) := by cases p <;> rfl

/-- The word of CMPSVC passes every decode check on the comparator's port. -/
theorem decode_cmpsvcWord : decode .cmp 0xE0000000 = .ok .cmpsvc := rfl

/-- The word of CMPSVC waits for its request, even while the consumer sleeps (R84, R164). -/
theorem verdict_cmpsvcWord (s : State) :
    verdict s .cmp 0xE0000000 = if s.cmpPend = false then .wait else .run .cmpsvc := by
  have hcmp : ¬(Port.cmp = .cons ∧ s.sleeping = true) := fun h => nomatch h.1
  rw [verdict, if_neg hcmp, decode_cmpsvcWord]
  simp

/-- CMPSVC with its request pending: the post of DeferredTimerFired and the wake, written out (R100, R164, R185). -/
theorem exec_cmpsvc_pending {s : State} (hpend : s.cmpPend = true) :
    exec .cmpsvc s = .next
      { s with
        cmpPend := false
        slot := if s.slot = .idle then .deferredTimerFired else s.slot
        dropCnt := if s.slot = .idle ∨ s.dropCnt = 0xFFFF then s.dropCnt else s.dropCnt + 1
        sleeping := false
        mode := if s.sleeping = true then 0 else s.mode
        out := if s.sleeping = true then s.out ++ [.wake] else s.out } := by
  have hexec : exec .cmpsvc s = execCmpsvc s := rfl
  rw [hexec, execCmpsvc_pending hpend, wakeIfSleeping_eq, post_saturating]
  simp

/-! ## The settled statements -/

/-- Settles O34: ARM is a format-A command of the consumer, and `armCore_eq` says what arming writes. -/
theorem armSetsDeadline : Obligations.ArmSetsDeadline := by
  refine ⟨encodedA_of_opcode (op := .arm) rfl (mayIssue_eq_consumerOnly (by decide) (by decide) (by decide))
    fun _ => rfl, fun off s => ?_⟩
  have hexec : exec (.arm off) s = .next (armCore off.toNat s) := rfl
  rw [hexec, armCore_eq, effectiveDelay]

/-- Settles O35: DISARM is a format-N command of the consumer, and its meaning is the stated update. -/
theorem disarmCancels : Obligations.DisarmCancels :=
  ⟨encodedN_of_opcode (op := .disarm) rfl (mayIssue_eq_consumerOnly (by decide) (by decide) (by decide)) fun _ => rfl,
    fun _ => rfl⟩

/-- Settles O36: TICK is a format-N command of the counter clock, and `tickCore_eq` says what a count writes. -/
theorem tickCountsAndMatches : Obligations.TickCountsAndMatches := by
  refine ⟨encodedN_of_opcode (op := .tick) rfl mayIssue_tick fun _ => rfl, fun s => ?_⟩
  have hexec : exec .tick s = .next (tickCore s) := rfl
  rw [hexec, tickCore_eq]

/-- Settles O37: the request alone decides between waiting and running; a run posts and then wakes. -/
theorem cmpsvcPosts : Obligations.CmpsvcPosts := by
  refine ⟨encodedN_of_opcode (op := .cmpsvc) rfl mayIssue_cmpsvc fun _ => rfl, fun s hidle => ?_,
    fun s hpend => ⟨?_, exec_cmpsvc_pending hpend⟩⟩
  · rw [verdict_cmpsvcWord, if_pos hidle]
  · rw [verdict_cmpsvcWord, hpend, if_neg (by decide)]

end Sys2Proof.Machine

/-!
PROOF. The power gate (spec/43_power_gate.md R180, R183 to R186): GATE by the state of its slot and the outcome of the
transition it runs, who wakes a sleeping consumer and who has no step meanwhile, and the settled statements O42, O43, O45
and O13.
-/

namespace Sys2Proof.Machine

/-! ## GATE (R183) -/

/-- PEND, read as SLOT being Idle or not (R24), decides what GATE does. -/
theorem exec_gate_eq (s : State) :
    exec .gate s = if s.slot = .idle then .next (gateEmpty s) else finish s (gateTake s) := by
  have hexec : exec .gate s = if pend s then finish s (gateTake s) else .next (gateEmpty s) := rfl
  by_cases hempty : s.slot = .idle <;> simp [hexec, pend, hempty]

/-- GATE and ADVANCE run one transition: from the emptied slot both answer its state, each with its own result word, or
both enter its fault, GATE from the state with the event still in the slot (R120, R183, R214). -/
theorem exec_gate_follows_advance {s : State} (hpending : s.slot ≠ .idle) :
    (∃ u, advanceCore s.slot (clearSlot s) = .ok u ∧
      exec (.advance s.slot) (clearSlot s) = .next { u with res := seqWord u.fsm } ∧
      exec .gate s = .next { u with res := gateTakeWord s.slot u.fsm }) ∨
    (∃ c, exec (.advance s.slot) (clearSlot s) = .next (raise c (clearSlot s)) ∧ exec .gate s = .next (raise c s)) := by
  have hadvance : exec (.advance s.slot) (clearSlot s) =
      finish (clearSlot s) (advanceResult (advanceCore s.slot (clearSlot s))) := rfl
  rw [hadvance, exec_gate_eq, if_neg hpending, gateTake]
  cases advanceCore s.slot (clearSlot s) with
  | ok u => exact .inl ⟨u, rfl, rfl, rfl⟩
  | error c => exact .inr ⟨c, rfl, rfl⟩

/-! ## Interrupts and the sleeping consumer (R185, R186) -/

/-- The commands that are interrupts in `s`: a producer's SIGNAL, and CMPSVC with its request pending (R185). -/
abbrev IsInterrupt (i : Instr) (s : State) : Prop :=
  (∃ e k, i = .signal e ∧ s.port = .prod k) ∨ (i = .cmpsvc ∧ s.cmpPend = true)

theorem isProducer_iff (p : Port) : isProducer p = true ↔ ∃ k, p = .prod k := by
  cases p <;> simp [isProducer]

/-- Whatever becomes of its post, an interrupt leaves the sleeping consumer awake (R101, R164, R185). -/
theorem wakeIfSleeping_post {s : State} (hasleep : s.sleeping = true) (e : Event) :
    (wakeIfSleeping (post e s)).sleeping = false ∧ (wakeIfSleeping (post e s)).mode = 0 ∧
      (wakeIfSleeping (post e s)).out = s.out ++ [.wake] := by
  simp [wakeIfSleeping_eq, post_eq, hasleep]

/-- An interrupt wakes a sleeping consumer (R185). -/
theorem exec_interrupt_wakes {i : Instr} {s t : State} (hexec : exec i s = .next t) (hasleep : s.sleeping = true)
    (hint : IsInterrupt i s) : t.sleeping = false ∧ t.mode = 0 ∧ t.out = s.out ++ [.wake] := by
  rcases hint with ⟨e, k, rfl, hport⟩ | ⟨rfl, hrequest⟩
  · have hproducer : isProducer s.port = true := (isProducer_iff s.port).mpr ⟨k, hport⟩
    obtain rfl := Host.Outcome.next.inj ((execSignal_producer hproducer e).symm.trans hexec)
    exact wakeIfSleeping_post hasleep e
  · obtain rfl := Host.Outcome.next.inj ((execCmpsvc_pending hrequest).symm.trans hexec)
    exact wakeIfSleeping_post (s := { s with cmpPend := false }) hasleep .deferredTimerFired

/-- No other command wakes the consumer, whether or not it raises a fault (R185). -/
theorem exec_keeps_sleeping {i : Instr} {s t : State} (hexec : exec i s = .next t) (hasleep : s.sleeping = true)
    (hint : ¬IsInterrupt i s) : t.sleeping = true := by
  rcases exec_cases hexec with ⟨c, rfl, -⟩ | heffect
  · exact hasleep
  cases i with
  | signal e =>
    have hquiet : ¬isProducer s.port = true := fun hp =>
      let ⟨k, hk⟩ := (isProducer_iff s.port).mp hp
      hint (.inl ⟨e, k, rfl, hk⟩)
    obtain rfl := heffect.trans (if_neg hquiet)
    rwa [post_eq]
  | cmpsvc =>
    rcases heffect with ⟨hrequest, -⟩ | ⟨-, rfl⟩
    · exact absurd (.inr ⟨rfl, hrequest⟩) hint
    · exact hasleep
  | gate =>
    rcases heffect with ⟨-, rfl⟩ | ⟨-, u, hcore, rfl⟩
    · rw [gateEmpty_eq]
      split
      · exact hasleep
      · rfl
    · obtain ⟨⟨⟨-, -, hkept, -⟩, -⟩, -⟩ := advanceCore_inv hcore
      exact hkept.trans hasleep
  | advance e =>
    obtain ⟨u, hcore, rfl⟩ := heffect
    obtain ⟨⟨⟨-, -, hkept, -⟩, -⟩, -⟩ := advanceCore_inv hcore
    exact hkept.trans hasleep
  | arm off => rwa [heffect, armCore_eq]
  | tick => rwa [heffect, tickCore_eq]
  | block l | unblock l => rwa [heffect.2]
  | haspend | take | disarm | rdstat | rdblk l | clrstat => rwa [heffect]

/-- The decision for a port other than the consumer's does not read SLEEPING (R84, R186). -/
theorem verdict_ignores_sleeping {p : Port} (hp : p ≠ .cons) (b : Bool) (s : State) (w : Word) :
    verdict { s with sleeping := b } p w = verdict s p w := by
  have hother : ∀ a : Bool, ¬(p = .cons ∧ a = true) := fun _ h => hp h.1
  rw [verdict, verdict, if_neg (hother _), if_neg (hother _)]

/-! ## The settled statements -/

/-- Settles O42: AllowedMode() is the loop of R180 from level 1, and `allowedFrom_spec` says where that loop stops. -/
theorem allowedModeIsDeepestUnblocked : Obligations.AllowedModeIsDeepestUnblocked := by
  intro s
  obtain ⟨-, hdeepest, hfree, hblocked⟩ := allowedFrom_spec s (s.cfg.m - 1) 1 le_rfl
  rw [Nat.sub_self, Nat.zero_add] at hdeepest hblocked
  exact ⟨hdeepest, hfree, hblocked⟩

/-- Settles O43: a transition without a fault leaves FAULT at 0 (`advanceCore_inv`), so FAULT tells the two outcomes of a
taking GATE apart. -/
theorem gateRunsLoopBody : Obligations.GateRunsLoopBody := by
  refine ⟨encodedN_of_opcode (op := .gate) rfl (mayIssue_eq_consumerOnly (by decide) (by decide) (by decide))
    fun _ => rfl, fun s hnofault => ⟨fun hempty hnone => ?_, fun hempty hsome => ?_, fun hpending => ?_⟩⟩
  · rw [exec_gate_eq, if_pos hempty, gateEmpty_eq, if_pos hnone]
  · rw [exec_gate_eq, if_pos hempty, gateEmpty_eq, if_neg hsome, gateSleepWord]
  · rcases exec_gate_follows_advance hpending with ⟨u, hcore, hadvance, hgate⟩ | ⟨c, hadvance, hgate⟩
    · obtain ⟨⟨⟨-, -, -, -, -, hfault, -⟩, -⟩, -⟩ := advanceCore_inv hcore
      have hclear : u.fault ≠ true := by simp [hfault, hnofault]
      exact ⟨_, hadvance, hgate.trans (congrArg _ (if_neg hclear).symm)⟩
    · exact ⟨_, hadvance, hgate⟩

/-- Settles O45: an interrupt wakes the consumer, and every other command leaves it asleep. -/
theorem onlyInterruptsWake : Obligations.OnlyInterruptsWake := by
  intro i s t hexec hasleep
  by_cases hint : IsInterrupt i s
  · obtain ⟨hawake, hmode, hout⟩ := exec_interrupt_wakes hexec hasleep hint
    exact ⟨iff_of_true hawake hint, fun _ => ⟨hmode, hout⟩⟩
  · have hstill : ¬t.sleeping = false := by simp [exec_keeps_sleeping hexec hasleep hint]
    exact ⟨iff_of_false hstill hint, fun hawake => absurd hawake hstill⟩

/-- Settles O13: the consumer's sleep is the first check of R84, and it concerns the consumer's port alone. -/
theorem sleepingConsumerWaits : Obligations.SleepingConsumerWaits := by
  refine ⟨fun s w hasleep => ?_, fun s p w hp => ?_⟩
  · rw [verdict, if_pos ⟨rfl, hasleep⟩]
  · exact (verdict_ignores_sleeping hp true s w).trans (verdict_ignores_sleeping hp false s w).symm

end Sys2Proof.Machine

/-!
PROOF. The diagnostic commands (spec/44_diagnostics.md R200, R202): the fields of the status word, and the settled
statements O46 and O48.
-/

namespace Sys2Proof.Machine

/-- The layout of R200, read from bit 31 down. `statusWord` is one concatenation, so a read skips the fields below its
first bit (`extractLsb'_append_eq_of_le`, `getLsbD_append`) and drops those above its last
(`extractLsb'_append_eq_of_add_le`). The arrows take the concatenation apart from the outside, before `simp` evaluates the
sums of widths these lemmas match on. -/
theorem statusWord_fields (s : State) :
    (statusWord s).extractLsb' 16 16 = s.dropCnt ∧ (statusWord s).extractLsb' 11 5 = 0 ∧
    (statusWord s).getLsbD 10 = s.wReject ∧ (statusWord s).getLsbD 9 = s.wInvalid ∧
    (statusWord s).getLsbD 8 = s.wTrunc ∧ (statusWord s).getLsbD 7 = s.railEn ∧
    (statusWord s).getLsbD 6 = s.cmpPend ∧ (statusWord s).getLsbD 5 = s.armed ∧
    (statusWord s).extractLsb' 2 3 = eventTag s.slot ∧ (statusWord s).extractLsb' 0 2 = seqCode s.fsm := by
  unfold statusWord
  refine ⟨?dropCnt, ?reserved, ?wReject, ?wInvalid, ?wTrunc, ?railEn, ?cmpPend, ?armed, ?slot, ?fsm⟩
  case dropCnt => simp [↓BitVec.extractLsb'_append_eq_of_le]
  case reserved | slot => simp [↓BitVec.extractLsb'_append_eq_of_le, ↓BitVec.extractLsb'_append_eq_of_add_le]
  case fsm => simp [↓BitVec.extractLsb'_append_eq_of_add_le]
  case wReject | wInvalid | wTrunc | railEn | cmpPend | armed => simp [↓BitVec.getLsbD_append]

/-- Settles O46: RDSTAT is a format-N command of the consumer, and `statusWord_fields` says what its result word holds. -/
theorem rdstatReadsStatus : Obligations.RdstatReadsStatus :=
  ⟨encodedN_of_opcode (op := .rdstat) rfl (mayIssue_eq_consumerOnly (by decide) (by decide) (by decide)) fun _ => rfl,
    fun s => ⟨statusWord s, rfl, statusWord_fields s⟩⟩

/-- Settles O48: CLRSTAT is a format-N command of the consumer, and its meaning is the stated update. -/
theorem clrstatClears : Obligations.ClrstatClears :=
  ⟨encodedN_of_opcode (op := .clrstat) rfl (mayIssue_eq_consumerOnly (by decide) (by decide) (by decide)) fun _ => rfl,
    fun _ => rfl⟩

end Sys2Proof.Machine

/-!
PROOF. Reset (spec/70_reset_and_hazards.md R240): the step of a reset turn, and the settled statement O1.
-/

namespace Sys2Proof.Machine

/-- A reset turn is enabled in every state, a faulted one too, and takes the reset (R215, R240). -/
theorem step_of_resetTurn {s : State} {now cmp : Nat} {replies : List BusReply} {received : List (List Byte)}
    {rest : List Turn} (hturns : s.turns = .reset now cmp replies received :: rest) :
    step s = .next (applyReset now cmp replies received { s with turns := rest }) := by
  rw [step, takeTurn, hturns]

/-- Settles O1: the `applyReset` laws give each element its reset value; a draw below 2^CLK_W is its own remainder. -/
theorem resetTurnLeavesResetValues : Obligations.ResetTurnLeavesResetValues := by
  intro s now cmp replies received rest hturns hnow hcmp
  refine ⟨_, step_of_resetTurn hturns, ?resetValues⟩
  simp [Nat.mod_eq_of_lt hnow, Nat.mod_eq_of_lt hcmp]

end Sys2Proof.Machine

/-!
PROOF. The encoding (spec/30_encoding.md R72 to R84): what the decoder and the encoder say of each other, the rights of the
ports, the words of format L, and the settled statements O5, O6, O7 and O9.
-/

namespace Sys2Proof.Machine

/-! ## The decoder, inverted (R84) -/

/-- A word decodes exactly if its opcode is one of R80, the port may issue it, its reserved bits are clear and its operands
are legal. -/
theorem decode_eq_ok_iff {p : Port} {w : Word} {i : Instr} :
    decode p w = .ok i ↔ ∃ op, opcodeOf (opField w) = some op ∧ mayIssue p op = true ∧
      w &&& reservedMask (formatOf op) = 0 ∧ decodeOperands op w = .ok i := by
  rw [decode]
  cases opcodeOf (opField w) with
  | none => simp
  | some op =>
    by_cases hport : mayIssue p op = true <;> by_cases hclear : w &&& reservedMask (formatOf op) = 0 <;>
      simp_all

/-- A format-T word carries the event of its tag (R74, R77). -/
theorem withTag_eq_ok_iff {w : Word} {k : Event → Instr} {i : Instr} :
    withTag w k = .ok i ↔ ∃ e, eventTag e = tagField w ∧ k e = i := by
  rw [withTag]
  cases htag : eventOfTag (tagField w) with
  | none =>
    have hreserved : ∀ e, eventTag e ≠ tagField w := fun e he => by simp [← he] at htag
    simp [hreserved]
  | some e =>
    have hunique : ∀ e', eventTag e' = tagField w ↔ e' = e := fun e' =>
      ⟨fun he => by simpa [← he] using htag, fun he => he ▸ eventOfTag_eq_some htag⟩
    simp [hunique]

/-- The operands of a word are the operand bits of its command: bits 27..0, where the format reserves none of them
(R73 to R79). -/
theorem decodeOperands_eq_ok {op : Opcode} {w : Word} {i : Instr} (hclear : w &&& reservedMask (formatOf op) = 0)
    (hoperands : decodeOperands op w = .ok i) :
    opcodeOfInstr i = op ∧ (operandBits i).toNat = w.toNat % 2 ^ 28 := by
  rw [reserved_clear_iff] at hclear
  rw [operandBits_toNat]
  cases op with
  | signal | advance =>
    obtain ⟨e, he, rfl⟩ := withTag_eq_ok_iff.mp hoperands
    simp only [formatOf] at hclear
    simp only [opcodeOfInstr, he, tagField_toNat, true_and]
    omega
  | arm =>
    obtain rfl := Except.ok.inj hoperands
    simp only [formatOf] at hclear
    simp only [opcodeOfInstr, offField_toNat, true_and]
    omega
  | block | unblock | rdblk =>
    obtain rfl := Except.ok.inj hoperands
    simp only [formatOf] at hclear
    simp only [opcodeOfInstr, lvlField_toNat, true_and]
    omega
  | haspend | take | disarm | gate | rdstat | clrstat | tick | cmpsvc =>
    obtain rfl := Except.ok.inj hoperands
    exact ⟨rfl, hclear.symm⟩

/-- A word that decodes has the opcode of its command, on a port with the right to it (R80, R222). -/
theorem decode_ok_opcode {p : Port} {w : Word} {i : Instr} (h : decode p w = .ok i) :
    opcodeOf (opField w) = some (opcodeOfInstr i) ∧ mayIssue p (opcodeOfInstr i) = true := by
  obtain ⟨op, hop, hport, hclear, hoperands⟩ := decode_eq_ok_iff.mp h
  obtain ⟨rfl, -⟩ := decodeOperands_eq_ok hclear hoperands
  exact ⟨hop, hport⟩

/-! ## The encoder's words -/

theorem tagField_encode_signal (e : Event) : tagField (encode (.signal e)) = eventTag e := by cases e <;> decide

theorem tagField_encode_advance (e : Event) : tagField (encode (.advance e)) = eventTag e := by cases e <;> decide

theorem lvlField_of_toNat {w : Word} {n : Nat} {lvl : BitVec 4} (hw : w.toNat = n * 2 ^ 28 + lvl.toNat * 2 ^ 24) :
    lvlField w = lvl := by
  apply BitVec.eq_of_toNat_eq
  have := lvl.isLt
  rw [lvlField_toNat]
  omega

theorem offField_of_toNat {w : Word} {n : Nat} {off : BitVec 24} (hw : w.toNat = n * 2 ^ 28 + off.toNat) :
    offField w = off := by
  apply BitVec.eq_of_toNat_eq
  have := off.isLt
  rw [offField_toNat]
  omega

/-- The operand fields of a command's word are the command's operands (R74 to R76). -/
theorem decodeOperands_encode (i : Instr) : decodeOperands (opcodeOfInstr i) (encode i) = .ok i := by
  have hword := encode_toNat i
  rw [operandBits_toNat] at hword
  cases i with
  | signal e => exact withTag_eq_ok_iff.mpr ⟨e, (tagField_encode_signal e).symm, rfl⟩
  | advance e => exact withTag_eq_ok_iff.mpr ⟨e, (tagField_encode_advance e).symm, rfl⟩
  | arm off =>
    simp [decodeOperands, opcodeOfInstr, offField_of_toNat hword]
  | block lvl | unblock lvl | rdblk lvl =>
    simp [decodeOperands, opcodeOfInstr, lvlField_of_toNat hword]
  | haspend | take | disarm | gate | rdstat | clrstat | tick | cmpsvc => rfl

/-- On a port without the right, the word of a command is BAD_PORT (R222). -/
theorem decode_encode_badPort {i : Instr} {p : Port} (hport : mayIssue p (opcodeOfInstr i) = false) :
    decode p (encode i) = .error .badPort := by
  simp [decode, opField_encode, hport]

/-! ## The settled statements -/

/-- Settles O5: the encoded word passes the checks of R84, the reserved bits by `reserved_clear`, and its fields are the
command's operands. -/
theorem decodeOfEncode : Obligations.DecodeOfEncode := by
  intro i p hport
  have hop : opcodeOf (opField (encode i)) = some (opcodeOfInstr i) := by rw [opField_encode, opcodeOf_opcodeBits]
  exact decode_eq_ok_iff.mpr ⟨_, hop, hport, Laws.EncodedFields.reserved_clear i, decodeOperands_encode i⟩

/-- Settles O6: a word that decodes agrees with its command's word in the opcode and in the 28 bits below it. -/
theorem encodeOfDecode : Obligations.EncodeOfDecode := by
  intro p w i hdecode
  obtain ⟨op, hop, -, hclear, hoperands⟩ := decode_eq_ok_iff.mp hdecode
  obtain ⟨rfl, hbits⟩ := decodeOperands_eq_ok hclear hoperands
  apply BitVec.eq_of_toNat_eq
  rw [encode_toNat, hbits, opcodeOf_eq_some hop, opField_toNat]
  omega

/-- Settles O7: the fourteen words decode by computation. -/
theorem tableWordsDecode : Obligations.TableWordsDecode := by
  unfold Obligations.TableWordsDecode
  decide

/-- Settles O9: a word that decodes has its opcode among those of the port, and an encoded word on another port is
BAD_PORT. -/
theorem portRights : Obligations.PortRights := by
  refine ⟨fun w i h => ?cons, fun k w i h => ?prod, fun w i h => ?clk, fun w i h => ?cmp, fun i ht hc => ?consWord,
    fun i k hs => ?prodWord, fun i ht => ?clkWord, fun i hc => ?cmpWord, rfl, rfl⟩
  case cons | prod | clk | cmp =>
    obtain ⟨-, hport⟩ := decode_ok_opcode h
    cases i <;> simp_all [mayIssue, opcodeOfInstr]
  case consWord => exact decodeOfEncode i .cons (by cases i <;> simp_all [mayIssue, opcodeOfInstr])
  case prodWord => exact decode_encode_badPort (by cases i <;> simp_all [mayIssue, opcodeOfInstr])
  case clkWord | cmpWord => exact decode_encode_badPort (by cases i <;> simp_all [mayIssue, opcodeOfInstr])

end Sys2Proof.Machine

/-!
PROOF. The commands of format L (spec/43_power_gate.md R181, R182; spec/44_diagnostics.md R201) and the whole-machine rules
about one command (spec/10_state.md R22, R34, R35, R38; spec/30_encoding.md R86; spec/60_exceptions.md R211): every command
completes, what each leaves unchanged, and the settled statements O20, O40, O41, O47, O49 and O51 to O56.
-/

namespace Sys2Proof.Machine

/-! ## Completion -/

theorem finish_completes (s : State) (r : Except Cause State) : ∃ t, finish s r = .next t := by
  cases r with
  | ok t => exact ⟨t, rfl⟩
  | error c => exact ⟨raise c s, rfl⟩

/-- Settles O52: a meaning ends in `.next` or in `finish`, and `finish` always answers a next state. -/
theorem everyCommandCompletes : Obligations.EveryCommandCompletes := by
  intro i s
  cases i with
  | advance e => exact finish_completes s _
  | block l | unblock l => exact finish_completes s _
  | gate =>
    rw [exec_gate_eq]
    split
    · exact ⟨_, rfl⟩
    · exact finish_completes s _
  | rdblk l =>
    have hexec : exec (.rdblk l) s = execRdblk l s := rfl
    rw [hexec, execRdblk, levelOperand_eq]
    by_cases hl : LegalLevel s.cfg l
    · exact ⟨_, by rw [if_pos hl]⟩
    · exact ⟨_, by rw [if_neg hl]⟩
  | cmpsvc =>
    cases hp : s.cmpPend with
    | false => exact ⟨_, execCmpsvc_idle hp⟩
    | true => exact ⟨_, execCmpsvc_pending hp⟩
  | signal _ | haspend | take | arm _ | disarm | rdstat | clrstat | tick => exact ⟨_, rfl⟩

/-! ## The commands of format L (R75, R78) -/

/-- A format-L opcode whose operand is the level field decodes as the rule of its command says. -/
theorem encodedL_of_opcode {op : Opcode} {ports : Port → Bool} {k : BitVec 4 → Instr} (hformat : formatOf op = .formatL)
    (hports : ∀ p, mayIssue p op = ports p) (hoperands : ∀ w, decodeOperands op w = .ok (k (lvlField w))) :
    EncodedL (opcodeBits op).toNat ports k := by
  intro p w hw
  have hreserved : w &&& reservedMask .formatL = 0 ↔ w.toNat % 2 ^ 24 = 0 := reserved_clear_iff .formatL w
  have hlevel : lvlField w = BitVec.ofNat 4 (w.toNat / 2 ^ 24 % 16) := by
    rw [← lvlField_toNat, BitVec.ofNat_toNat, BitVec.setWidth_eq]
  simp only [decode_at hw, hformat, hports, hoperands, ne_eq, hreserved, hlevel]

/-- The levels that raise BAD_LEVEL (R78, R84). -/
theorem not_legalLevel_iff {c : Params} {lvl : BitVec 4} : ¬LegalLevel c lvl ↔ lvl = 0 ∨ c.m ≤ lvl.toNat := by
  have hzero : lvl = 0 ↔ lvl.toNat = 0 := BitVec.toNat_inj.symm
  rw [hzero]
  omega

theorem legalLevel_iff {c : Params} {lvl : BitVec 4} : LegalLevel c lvl ↔ ¬(lvl = 0 ∨ c.m ≤ lvl.toNat) :=
  (not_iff_comm.mp not_legalLevel_iff).symm

/-- Settles O40: the three cases of `execBlock_inv` are the three outcomes. -/
theorem blockAdds : Obligations.BlockAdds := by
  refine ⟨encodedL_of_opcode (op := .block) rfl (mayIssue_eq_consumerOnly (by decide) (by decide) (by decide))
    fun _ => rfl, fun lvl s => ?_⟩
  obtain ⟨t, ht⟩ := everyCommandCompletes (.block lvl) s
  rw [ht]
  rcases execBlock_inv ht with ⟨hbad, rfl⟩ | ⟨hlegal, hfull, rfl⟩ | ⟨hlegal, hbelow, rfl⟩
  · rw [if_pos (not_legalLevel_iff.mp hbad)]; rfl
  · rw [if_neg (legalLevel_iff.mp hlegal), if_pos hfull]; rfl
  · rw [if_neg (legalLevel_iff.mp hlegal), if_neg hbelow]; rfl

/-- Settles O41: the three cases of `execUnblock_inv` are the three outcomes. -/
theorem unblockRemoves : Obligations.UnblockRemoves := by
  refine ⟨encodedL_of_opcode (op := .unblock) rfl (mayIssue_eq_consumerOnly (by decide) (by decide) (by decide))
    fun _ => rfl, fun lvl s => ?_⟩
  obtain ⟨t, ht⟩ := everyCommandCompletes (.unblock lvl) s
  rw [ht]
  rcases execUnblock_inv ht with ⟨hbad, rfl⟩ | ⟨hlegal, hzero, rfl⟩ | ⟨hlegal, hheld, rfl⟩
  · rw [if_pos (not_legalLevel_iff.mp hbad)]; rfl
  · rw [if_neg (legalLevel_iff.mp hlegal), if_pos hzero]; rfl
  · rw [if_neg (legalLevel_iff.mp hlegal), if_neg hheld]; rfl

/-- Settles O47: the two cases of `execRdblk_inv` are the two outcomes. -/
theorem rdblkReadsCount : Obligations.RdblkReadsCount := by
  refine ⟨encodedL_of_opcode (op := .rdblk) rfl (mayIssue_eq_consumerOnly (by decide) (by decide) (by decide))
    fun _ => rfl, fun lvl s => ?_⟩
  obtain ⟨t, ht⟩ := everyCommandCompletes (.rdblk lvl) s
  rw [ht]
  rcases execRdblk_inv ht with ⟨hbad, rfl⟩ | ⟨hlegal, rfl⟩
  · rw [if_pos (not_legalLevel_iff.mp hbad)]; rfl
  · rw [if_neg (legalLevel_iff.mp hlegal)]

/-- Settles O49: each of the three writes a word to RES that does not depend on RES. -/
theorem readsAreIdempotent : Obligations.ReadsAreIdempotent := by
  intro i s t hread hexec
  rcases hread with rfl | rfl | ⟨lvl, rfl, hlegal⟩
  · obtain rfl := Host.Outcome.next.inj hexec
    exact ⟨rfl, rfl⟩
  · obtain rfl := Host.Outcome.next.inj hexec
    exact ⟨rfl, rfl⟩
  · obtain ⟨-, hread⟩ := rdblkReadsCount
    have hgood := legalLevel_iff.mp hlegal
    obtain rfl := Host.Outcome.next.inj ((hread lvl s).symm.trans hexec)
    rw [if_neg hgood]
    refine ⟨rfl, (hread lvl _).trans ?_⟩
    rw [if_neg hgood]
    rfl

/-! ## What a command writes (R22) -/

/-- The commands whose execution can raise a fault (R211). -/
theorem opcode_of_faultShape {i : Instr} {c : Cause} (h : FaultShape i c) :
    opcodeOfInstr i ∈ [Opcode.block, .unblock, .rdblk, .advance, .gate] := by
  rcases h with ⟨-, l, rfl | rfl | rfl⟩ | ⟨-, ⟨l, rfl⟩ | ⟨e, rfl⟩ | rfl⟩ | ⟨-, ⟨l, rfl⟩ | ⟨e, rfl⟩ | rfl⟩ <;>
    simp [opcodeOfInstr]

/-- An output that some condition appends is an appended output. -/
theorem appends_of_ite (c : Prop) [Decidable c] (o es : List OutEvent) :
    ∃ es', (if c then o ++ es else o) = o ++ es' := by
  by_cases h : c
  · exact ⟨es, if_pos h⟩
  · exact ⟨[], by rw [if_neg h, List.append_nil]⟩

/-- Settles O53: fault entry writes FAULT and FCAUSE alone, and each command's own effect is that of `exec_cases`. -/
theorem writtenOnlyByNamedCommands : Obligations.WrittenOnlyByNamedCommands := by
  intro i s t hexec
  rcases exec_cases hexec with ⟨c, rfl, hshape⟩ | heffect
  · have hop := opcode_of_faultShape hshape
    simp only [raise, hop]
    simp
  dsimp only
  cases i with
  | signal e =>
    dsimp only at heffect
    subst heffect
    by_cases hproducer : ∃ k, s.port = .prod k
    · simp [opcodeOfInstr, post_eq, wakeIfSleeping_eq, isProducer_iff, hproducer, appends_of_ite]
    · simp [opcodeOfInstr, post_eq, isProducer_iff, hproducer]
  | cmpsvc =>
    rcases heffect with ⟨-, rfl⟩ | ⟨-, rfl⟩
    · simp [opcodeOfInstr, post_eq, wakeIfSleeping_eq, appends_of_ite]
    · simp
  | gate =>
    rcases heffect with ⟨-, rfl⟩ | ⟨-, u, hcore, rfl⟩
    · by_cases hnone : allowedMode s = 0 <;> simp [opcodeOfInstr, gateEmpty_eq, hnone]
    · obtain ⟨⟨⟨-, hnow, hsleep, hmode, hdrop, hfault, hfcause, -⟩, -, -, es, -, hout⟩, -⟩ := advanceCore_inv hcore
      simp_all [opcodeOfInstr]
  | advance e =>
    obtain ⟨u, hcore, rfl⟩ := heffect
    obtain ⟨⟨⟨hslot, hnow, hsleep, hmode, hdrop, hfault, hfcause, -⟩, -, -, es, -, hout⟩, -⟩ := advanceCore_inv hcore
    simp [opcodeOfInstr, *]
  | arm off =>
    dsimp only at heffect
    subst heffect
    simp [opcodeOfInstr, armCore_eq, appends_of_ite]
  | tick =>
    dsimp only at heffect
    subst heffect
    simp [opcodeOfInstr, tickCore_eq]
  | block l | unblock l =>
    obtain ⟨-, rfl⟩ := heffect
    simp [opcodeOfInstr]
  | haspend | take | disarm | rdstat | rdblk l | clrstat =>
    dsimp only at heffect
    subst heffect
    simp [opcodeOfInstr]

/-- Settles O54: the RES row of `writtenOnlyByNamedCommands`. -/
theorem resWrittenOnlyByResultCommands : Obligations.ResWrittenOnlyByResultCommands := by
  intro i s t hexec hhaspend htake hadvance hgate hrdstat hrdblk
  obtain ⟨-, -, -, -, -, -, -, -, -, -, -, -, -, hres, -⟩ := writtenOnlyByNamedCommands i s t hexec
  apply hres
  cases i <;> simp_all [opcodeOfInstr]

/-- Settles O55: the OUT row of `writtenOnlyByNamedCommands`. -/
theorem outputOnlyGrows : Obligations.OutputOnlyGrows := by
  intro i s t hexec
  obtain ⟨-, -, -, -, -, -, -, -, -, -, -, -, -, -, hout, -⟩ := writtenOnlyByNamedCommands i s t hexec
  exact hout

/-! ## Posts (R100, R104) -/

/-- The two commands that may post end in a next state with the slot and the drop count of the post (R101, R164). -/
theorem exec_signal_posts {e : Event} {s t : State} (hexec : exec (.signal e) s = .next t) :
    t.slot = (post e s).slot ∧ t.dropCnt = (post e s).dropCnt := by
  have hsignal : exec (.signal e) s = .next (if isProducer s.port then wakeIfSleeping (post e s) else post e s) := rfl
  obtain rfl := Host.Outcome.next.inj (hsignal.symm.trans hexec)
  split <;> simp [wakeIfSleeping_eq]

theorem exec_cmpsvc_posts {s t : State} (hexec : exec .cmpsvc s = .next t) :
    t.slot = (post (eventPosted .cmpsvc s) s).slot ∧ t.dropCnt = (post (eventPosted .cmpsvc s) s).dropCnt := by
  cases hp : s.cmpPend with
  | false =>
    obtain rfl := Host.Outcome.next.inj ((execCmpsvc_idle hp).symm.trans hexec)
    simp [eventPosted, hp, post]
  | true =>
    obtain rfl := Host.Outcome.next.inj ((execCmpsvc_pending hp).symm.trans hexec)
    simp [eventPosted, hp, post_eq, wakeIfSleeping_eq]

/-- SLOT after any command that does not take the event: as after the post of the event that the command posts. -/
theorem exec_slot {i : Instr} {s t : State} (htake : i ≠ .take) (hgate : i ≠ .gate) (hexec : exec i s = .next t) :
    t.slot = (post (eventPosted i s) s).slot := by
  obtain ⟨hkept, -⟩ := writtenOnlyByNamedCommands i s t hexec
  cases i with
  | signal e => exact (exec_signal_posts hexec).1
  | cmpsvc => exact (exec_cmpsvc_posts hexec).1
  | take => exact absurd rfl htake
  | gate => exact absurd rfl hgate
  | _ => exact hkept (by simp [opcodeOfInstr])

/-- DROP_CNT after any command that does not clear it: as after the post of the event that the command posts. -/
theorem exec_dropCnt {i : Instr} {s t : State} (hclr : i ≠ .clrstat) (hexec : exec i s = .next t) :
    t.dropCnt = (post (eventPosted i s) s).dropCnt := by
  obtain ⟨-, -, -, -, -, -, -, -, -, -, -, hkept, -⟩ := writtenOnlyByNamedCommands i s t hexec
  cases i with
  | signal e => exact (exec_signal_posts hexec).2
  | cmpsvc => exact (exec_cmpsvc_posts hexec).2
  | clrstat => exact absurd rfl hclr
  | _ => exact hkept (by simp [opcodeOfInstr])

/-- Settles O20: a post into a full slot leaves it. -/
theorem pendingEventIsKept : Obligations.PendingEventIsKept := by
  intro i s t hfull htake hgate hexec
  rw [exec_slot htake hgate hexec, post_eq]
  exact if_neg hfull

/-- A post never lowers the drop count (R100). -/
theorem dropCnt_le_post (e : Event) (s : State) : s.dropCnt.toNat ≤ (post e s).dropCnt.toNat := by
  have := s.dropCnt.isLt
  rw [post_eq]
  dsimp only
  split
  · exact le_rfl
  · rw [satSucc_toNat]
    omega

/-- No `Advance` clears a warning: the frame says so of W_INVALID and W_REJECT, the three shapes of W_TRUNC. -/
theorem advanceCore_keeps_warnings {e : Event} {s t : State} (h : advanceCore e s = .ok t) :
    (s.wTrunc = true → t.wTrunc = true) ∧ (s.wInvalid = true → t.wInvalid = true) ∧
      (s.wReject = true → t.wReject = true) := by
  obtain ⟨⟨-, hinvalid, hreject, -⟩, hshape⟩ := advanceCore_inv h
  refine ⟨fun hset => ?_, hinvalid, hreject⟩
  rcases hshape with ⟨-, -, -, -, hkept, -⟩ | ⟨-, -, -, -, -, -, -, -, hsticky⟩ | ⟨-, -, -, -, -, -, -, -, hkept⟩
  · exact hkept.trans hset
  · exact hsticky hset
  · exact hkept.trans hset

/-- No command but CLRSTAT clears a warning (R34). -/
theorem exec_keeps_warnings {i : Instr} {s t : State} (hclr : i ≠ .clrstat) (hexec : exec i s = .next t) :
    (s.wTrunc = true → t.wTrunc = true) ∧ (s.wInvalid = true → t.wInvalid = true) ∧
      (s.wReject = true → t.wReject = true) := by
  rcases exec_cases hexec with ⟨c, rfl, -⟩ | heffect
  · exact ⟨id, id, id⟩
  obtain ⟨-, -, -, -, -, -, -, -, -, htrunc, hothers, -⟩ := writtenOnlyByNamedCommands i s t hexec
  cases i with
  | clrstat => exact absurd rfl hclr
  | arm off =>
    rw [heffect, armCore_eq]
    refine ⟨fun hset => ?_, id, id⟩
    simp [hset]
  | advance e =>
    obtain ⟨u, hcore, rfl⟩ := heffect
    have hkept := advanceCore_keeps_warnings hcore
    exact hkept
  | gate =>
    rcases heffect with ⟨-, rfl⟩ | ⟨-, u, hcore, rfl⟩
    · rw [gateEmpty_eq]
      split <;> exact ⟨id, id, id⟩
    · have hkept := advanceCore_keeps_warnings hcore
      exact hkept
  | _ =>
    have htrunc := htrunc (by simp [opcodeOfInstr])
    obtain ⟨hinvalid, hreject⟩ := hothers (by simp [opcodeOfInstr])
    exact ⟨htrunc.trans, hinvalid.trans, hreject.trans⟩

/-- Settles O56: a command but CLRSTAT counts drops by a post, and `exec_keeps_warnings` says the rest. -/
theorem warningsAreSticky : Obligations.WarningsAreSticky := by
  intro i s t hclr hexec
  obtain ⟨htrunc, hinvalid, hreject⟩ := exec_keeps_warnings hclr hexec
  refine ⟨htrunc, hinvalid, hreject, ?_⟩
  rw [exec_dropCnt hclr hexec]
  exact dropCnt_le_post _ s

/-! ## Faults (R211, R214) -/

/-- A command is fault entry from the state before it, for one of the causes of its shape, or leaves FAULT and FCAUSE; the
parameters it leaves in any case (R39, R214). -/
theorem exec_fault_entry {i : Instr} {s t : State} (hexec : exec i s = .next t) :
    t.cfg = s.cfg ∧ ((∃ c, t = raise c s ∧ FaultShape i c) ∨ (t.fault = s.fault ∧ t.fcause = s.fcause)) := by
  rcases exec_cases hexec with ⟨c, rfl, hshape⟩ | heffect
  · exact ⟨rfl, .inl ⟨c, rfl, hshape⟩⟩
  suffices hkept : t.cfg = s.cfg ∧ t.fault = s.fault ∧ t.fcause = s.fcause from ⟨hkept.1, .inr hkept.2⟩
  cases i with
  | signal e =>
    rw [heffect, wakeIfSleeping_eq, post_eq]
    split <;> exact ⟨rfl, rfl, rfl⟩
  | cmpsvc =>
    rcases heffect with ⟨-, rfl⟩ | ⟨-, rfl⟩
    · simp [wakeIfSleeping_eq, post_eq]
    · exact ⟨rfl, rfl, rfl⟩
  | gate =>
    rcases heffect with ⟨-, rfl⟩ | ⟨-, u, hcore, rfl⟩
    · rw [gateEmpty_eq]
      split <;> exact ⟨rfl, rfl, rfl⟩
    · obtain ⟨⟨⟨-, -, -, -, -, hfault, hfcause, -, hcfg, -⟩, -⟩, -⟩ := advanceCore_inv hcore
      exact ⟨hcfg, hfault, hfcause⟩
  | advance e =>
    obtain ⟨u, hcore, rfl⟩ := heffect
    obtain ⟨⟨⟨-, -, -, -, -, hfault, hfcause, -, hcfg, -⟩, -⟩, -⟩ := advanceCore_inv hcore
    exact ⟨hcfg, hfault, hfcause⟩
  | arm off =>
    rw [heffect, armCore_eq]
    exact ⟨rfl, rfl, rfl⟩
  | tick =>
    rw [heffect, tickCore_eq]
    exact ⟨rfl, rfl, rfl⟩
  | block l | unblock l =>
    rw [heffect.2]
    exact ⟨rfl, rfl, rfl⟩
  | haspend | take | disarm | rdstat | rdblk l | clrstat =>
    rw [heffect]
    exact ⟨rfl, rfl, rfl⟩

/-- A command that ends with a fault it did not start with is fault entry. -/
theorem exec_fault_is_raise {i : Instr} {s t : State} (hclear : s.fault = false) (hexec : exec i s = .next t)
    (hfault : t.fault = true) : ∃ c, t = raise c s ∧ FaultShape i c := by
  obtain ⟨-, hraise | ⟨hkept, -⟩⟩ := exec_fault_entry hexec
  · exact hraise
  · simp [hkept, hclear] at hfault

/-- Settles O51: the causes of `exec_fault_is_raise`, as codes. -/
theorem faultCausesByCommand : Obligations.FaultCausesByCommand := by
  intro i s t hclear hexec hfault
  obtain ⟨c, rfl, ⟨rfl, hi⟩ | ⟨rfl, hi⟩ | ⟨rfl, hi⟩⟩ := exec_fault_is_raise hclear hexec hfault
  · exact .inl ⟨rfl, hi⟩
  · exact .inr (.inl ⟨rfl, hi⟩)
  · exact .inr (.inr ⟨rfl, hi⟩)

end Sys2Proof.Machine

/-!
PROOF. The step (spec/20_memory.md R51 to R56, spec/30_encoding.md R84, spec/60_exceptions.md R214, R215): one turn of each
kind, everything a step can do, and the settled statements O4, O10, O11, O12, O14, O15, O50 and O57.
-/

namespace Sys2Proof.Machine

/-! ## One turn of each kind -/

theorem step_of_agentTurn {s : State} {p : Port} {rest : List Turn} (hturns : s.turns = .agent p :: rest)
    (hclear : s.fault = false) : step s = agentStep p { s with turns := rest } := by
  simp [step, takeTurn, hturns, hclear]

theorem step_of_writeTurn {s : State} {p : Port} {bytes : List Byte} {rest : List Turn}
    (hturns : s.turns = .write p bytes :: rest) (hclear : s.fault = false) :
    step s = busWriteStep p bytes { s with turns := rest } := by
  simp [step, takeTurn, hturns, hclear]

/-- A faulted block is halted on every turn but a reset (R215). -/
theorem step_of_fault {s : State} (hfault : s.fault = true)
    (hturns : ∀ now cmp rs bs rest, s.turns ≠ .reset now cmp rs bs :: rest) : step s = .fault (.halted s.fcause) := by
  rw [step, takeTurn]
  split
  · simp [hfault]
  · next h => exact absurd h (hturns _ _ _ _ _)
  · simp [hfault]
  · simp [hfault]

section

variable {s : State} {p : Port} {w : Word}

/-- The outcome of an agent's turn with a word on an existing port, by the decision of R84. -/
theorem agentStep_of_wait (hport : portExists s.cfg p = true) (hword : wordOffered p s.offered = some w)
    (hverdict : verdict s p w = .wait) : agentStep p s = .next s := by
  simp [agentStep, hport, hword, hverdict]

theorem agentStep_of_fault {c : Cause} (hport : portExists s.cfg p = true) (hword : wordOffered p s.offered = some w)
    (hverdict : verdict s p w = .fault c) : agentStep p s = .next (raise c (issue p s)) := by
  simp [agentStep, hport, hword, hverdict]

theorem agentStep_of_run {i : Instr} (hport : portExists s.cfg p = true) (hword : wordOffered p s.offered = some w)
    (hverdict : verdict s p w = .run i) : agentStep p s = exec i (issue p s) := by
  simp [agentStep, hport, hword, hverdict]

theorem verdict_of_asleep (hasleep : p = .cons ∧ s.sleeping = true) : verdict s p w = .wait := if_pos hasleep

theorem verdict_of_decode_error {c : Cause} (hawake : ¬(p = .cons ∧ s.sleeping = true))
    (hdecode : decode p w = .error c) : verdict s p w = .fault c := by
  rw [verdict, if_neg hawake, hdecode]

theorem verdict_of_decode_ok {i : Instr} (hawake : ¬(p = .cons ∧ s.sleeping = true)) (hdecode : decode p w = .ok i) :
    verdict s p w = if i = .cmpsvc ∧ s.cmpPend = false then .wait else .run i := by
  rw [verdict, if_neg hawake, hdecode]

/-- Everything an agent's turn can do when it answers a next state: nothing, fault entry for its word, or a command. -/
theorem agentStep_cases {t : State} (h : agentStep p s = .next t) :
    t = s ∨ (∃ c, t = raise c (issue p s)) ∨ ∃ i, exec i (issue p s) = .next t := by
  rw [agentStep] at h
  split at h
  · cases h
  split at h
  · exact .inl (Host.Outcome.next.inj h).symm
  split at h
  · exact .inl (Host.Outcome.next.inj h).symm
  · exact .inr (.inl ⟨_, (Host.Outcome.next.inj h).symm⟩)
  · exact .inr (.inr ⟨_, h⟩)

/-- A bus access that is not refused queues one word (R51, R52). -/
theorem busWriteStep_cases {t : State} {bytes : List Byte} (h : busWriteStep p bytes s = .next t) :
    ∃ w, t = { s with offered := s.offered ++ [(p, w)] } := by
  rw [busWriteStep] at h
  split at h
  · cases h
  split at h
  · exact ⟨_, (Host.Outcome.next.inj h).symm⟩
  · cases h

end

/-- Everything a step that answers a next state can do: nothing, a reset, an agent's turn, or a bus access. -/
theorem step_cases {s t : State} (h : step s = .next t) :
    t = s ∨
    (∃ now cmp replies received rest, t = applyReset now cmp replies received { s with turns := rest }) ∨
    (∃ p rest, agentStep p { s with turns := rest } = .next t) ∨
    (∃ p rest w, t = { s with turns := rest, offered := s.offered ++ [(p, w)] }) := by
  cases hturns : s.turns with
  | nil =>
    rw [step, takeTurn, hturns] at h
    rcases Bool.eq_false_or_eq_true s.fault with hfault | hfault
    · simp [hfault] at h
    · exact .inl (by simpa [hfault] using h.symm)
  | cons turn rest =>
    cases turn with
    | reset now cmp replies received =>
      exact .inr (.inl ⟨now, cmp, replies, received, rest,
        (Host.Outcome.next.inj ((step_of_resetTurn hturns).symm.trans h)).symm⟩)
    | agent p =>
      rcases Bool.eq_false_or_eq_true s.fault with hfault | hfault
      · cases (step_of_fault hfault (by simp [hturns])).symm.trans h
      · exact .inr (.inr (.inl ⟨p, rest, (step_of_agentTurn hturns hfault).symm.trans h⟩))
    | write p bytes =>
      rcases Bool.eq_false_or_eq_true s.fault with hfault | hfault
      · cases (step_of_fault hfault (by simp [hturns])).symm.trans h
      · obtain ⟨w, rfl⟩ := busWriteStep_cases ((step_of_writeTurn hturns hfault).symm.trans h)
        exact .inr (.inr (.inr ⟨p, rest, w, rfl⟩))

/-! ## The settled statements -/

/-- Settles O11: the checks of R84 pass, so the turn is the command's. -/
theorem stepRunsOfferedCommand : Obligations.StepRunsOfferedCommand := by
  intro s p rest w i hturns hclear hport hword hdecode hawake henabled
  rw [step_of_agentTurn hturns hclear]
  exact agentStep_of_run (s := { s with turns := rest }) hport hword
    ((verdict_of_decode_ok hawake hdecode).trans (if_neg henabled))

/-- Settles O12: a decode check fails, so the turn is fault entry, with the code of the cause (R211). -/
theorem malformedWordFaults : Obligations.MalformedWordFaults := by
  intro s p rest w c hturns hclear hport hword hdecode hawake
  rw [step_of_agentTurn hturns hclear,
    agentStep_of_fault (s := { s with turns := rest }) hport hword (verdict_of_decode_error hawake hdecode)]
  cases c <;> rfl

/-- Settles O14: in both cases the decision of R84 is to wait. -/
theorem waitingAgentKeepsItsWord : Obligations.WaitingAgentKeepsItsWord := by
  intro s p rest w hturns hclear hport hword hwait
  rw [step_of_agentTurn hturns hclear]
  refine agentStep_of_wait (s := { s with turns := rest }) hport hword ?_
  rcases hwait with hasleep | ⟨rfl, rfl, hidle⟩
  · exact verdict_of_asleep hasleep
  · rw [verdict_cmpsvcWord]
    exact if_pos hidle

/-- Settles O15: every turn but a reset is halted, and a reset turn takes the reset. -/
theorem haltedUntilReset : Obligations.HaltedUntilReset := by
  refine fun s hfault => ⟨fun p rest hturns => ?_, fun p bytes rest hturns => ?_, fun hturns => ?_,
    fun now cmp rs bs rest hturns => ⟨_, step_of_resetTurn hturns, rfl, rfl⟩⟩ <;>
  exact step_of_fault hfault (by simp [hturns])

/-- The bytes of a word, lowest first, make the word again (R51). -/
theorem wordOfBytes_bytesOfWord (w : Word) : wordOfBytes (bytesOfWord w) = some w := by
  simp only [bytesOfWord, wordOfBytes, Option.some.injEq]
  ext k hk
  simp only [BitVec.getElem_append, BitVec.getElem_extractLsb']
  rw [← BitVec.getLsbD_eq_getElem]
  split_ifs <;> congr 1 <;> omega

/-- Only a list of four bytes carries a word (R52). -/
theorem wordOfBytes_of_length_ne {bytes : List Byte} (h : bytes.length ≠ 4) : wordOfBytes bytes = none := by
  unfold wordOfBytes
  split
  · simp at h
  · rfl

/-- Settles O10: the bus access of an existing port is decided by whether its bytes make a word. -/
theorem byteBusIsLittleEndian : Obligations.ByteBusIsLittleEndian := by
  refine ⟨fun s p w rest hturns hclear hport => ?_, fun s p bytes rest hturns hlength hclear hport => ?_⟩
  · rw [step_of_writeTurn hturns hclear, ← bytesOfWord]
    simp [busWriteStep, hport, wordOfBytes_bytesOfWord]
  · rw [step_of_writeTurn hturns hclear]
    simp [busWriteStep, hport, wordOfBytes_of_length_ne hlength]

/-- Settles O4: a reset and a command leave the parameters, and the rest of a step touches the model's own fields. -/
theorem stepKeepsParameters : Obligations.StepKeepsParameters := by
  intro s t hstep
  rcases step_cases hstep with rfl | ⟨now, cmp, rs, bs, rest, rfl⟩ | ⟨p, rest, hagent⟩ | ⟨p, rest, w, rfl⟩
  · rfl
  · rfl
  · rcases agentStep_cases hagent with rfl | ⟨c, rfl⟩ | ⟨i, hexec⟩
    · rfl
    · rfl
    · exact (exec_fault_entry hexec).1
  · rfl

/-- Settles O50: an agent's turn that ends in a fault is fault entry, by the word or by the command, from the state in which
the word is issued. -/
theorem faultsArePrecise : Obligations.FaultsArePrecise := by
  intro s t p rest hturns hclear hstep hfault
  suffices hraise : ∃ c, t = raise c (issue p { s with turns := rest }) by
    obtain ⟨c, rfl⟩ := hraise
    exact ⟨rfl, Nat.pos_of_ne_zero fun h => causeCode_ne_zero c (BitVec.eq_of_toNat_eq h), causeCode_le c⟩
  rcases agentStep_cases ((step_of_agentTurn hturns hclear).symm.trans hstep) with rfl | hword | ⟨i, hexec⟩
  · exact absurd hfault (by simp [hclear])
  · exact hword
  · obtain ⟨c, hraise, -⟩ := exec_fault_is_raise (s := issue p { s with turns := rest }) hclear hexec hfault
    exact ⟨c, hraise⟩

/-- A drawn string that has READ_LEN bytes is received as it is (R89). -/
theorem nextReceived_of_fixed {t : State} {b : List Byte} {bs : List (List Byte)} (hfixed : t.received = b :: bs)
    (hlength : b.length = t.cfg.readLen) : nextReceived t = b := by
  apply List.ext_getElem
  · rw [nextReceived_length, hlength]
  · intro n _ hn
    simp [nextReceived, hfixed, hn]

/-- Settles O57: the reset turn's own answers stand first in the lists that the draws read. -/
theorem resetLeavesAnswersFree : Obligations.ResetLeavesAnswersFree := by
  intro s now cmp replies received rest hturns
  refine ⟨_, step_of_resetTurn hturns, rfl, rfl, ?reply, ?bytes, ?freeReply, ?freeBytes⟩
  case reply =>
    rintro r rs rfl
    exact ⟨rfl, rfl⟩
  case bytes =>
    rintro b bs rfl hlength
    exact ⟨nextReceived_of_fixed rfl hlength, rfl⟩
  case freeReply =>
    rintro rfl
    rfl
  case freeBytes =>
    rintro rfl
    rfl

end Sys2Proof.Machine

/-!
PROOF. The decision of R84 on the numbers of a word (spec/30_encoding.md section 5), and the settled statement O8.
-/

namespace Sys2Proof.Machine

/-- The opcodes of no command are 0x0 and 0xF (R82). -/
theorem opcodeOf_opField_eq_none_iff (w : Word) :
    opcodeOf (opField w) = none ↔ w.toNat / 2 ^ 28 = 0 ∨ w.toNat / 2 ^ 28 = 15 := by
  rw [← opField_toNat]
  have all : ∀ b : BitVec 4, opcodeOf b = none ↔ b.toNat = 0 ∨ b.toNat = 15 := by decide
  exact all (opField w)

/-- The reserved tags are 6 and 7 (R77). -/
theorem eventOfTag_tagField_eq_none_iff (w : Word) :
    eventOfTag (tagField w) = none ↔ 6 ≤ w.toNat / 2 ^ 25 % 8 := by
  rw [← tagField_toNat]
  have all : ∀ b : BitVec 3, eventOfTag b = none ↔ 6 ≤ b.toNat := by decide
  exact all (tagField w)

/-- The operands of a word fail for a reserved tag of a format-T command alone (R77). -/
theorem decodeOperands_badTag {op : Opcode} {w : Word} (h : (op = .signal ∨ op = .advance) ∧ 6 ≤ w.toNat / 2 ^ 25 % 8) :
    decodeOperands op w = .error .badTag := by
  have htag := (eventOfTag_tagField_eq_none_iff w).mpr h.2
  rcases h with ⟨rfl | rfl, -⟩ <;> simp [decodeOperands, withTag, htag]

theorem decodeOperands_ok {op : Opcode} {w : Word} (h : ¬((op = .signal ∨ op = .advance) ∧ 6 ≤ w.toNat / 2 ^ 25 % 8)) :
    ∃ i, decodeOperands op w = .ok i := by
  by_cases hop : op = .signal ∨ op = .advance
  · have htag : eventOfTag (tagField w) ≠ none := fun hn => h ⟨hop, (eventOfTag_tagField_eq_none_iff w).mp hn⟩
    obtain ⟨e, he⟩ := Option.ne_none_iff_exists'.mp htag
    rcases hop with rfl | rfl <;> simp [decodeOperands, withTag, he]
  · cases op <;> simp_all [decodeOperands]

/-- A command of format L with a level out of range raises BAD_LEVEL (R78, assumption 11). -/
theorem exec_badLevel {i : Instr} {w : Word} {s : State} (hi : opcodeOfInstr i ∈ [Opcode.block, .unblock, .rdblk])
    (hword : encode i = w) (hlevel : w.toNat / 2 ^ 24 % 16 = 0 ∨ s.cfg.m ≤ w.toNat / 2 ^ 24 % 16) :
    exec i s = .next { s with fault := true, fcause := 5 } := by
  obtain ⟨-, hblock⟩ := blockAdds
  obtain ⟨-, hunblock⟩ := unblockRemoves
  obtain ⟨-, hrdblk⟩ := rdblkReadsCount
  have hbits := encode_toNat i
  rw [hword, operandBits_toNat] at hbits
  cases i with
  | block l | unblock l | rdblk l =>
    have hbad : l = 0 ∨ s.cfg.m ≤ l.toNat := by
      rw [← lvlField_toNat, lvlField_of_toNat hbits] at hlevel
      exact hlevel.imp_left fun hzero => BitVec.eq_of_toNat_eq hzero
    simp only [hblock, hunblock, hrdblk, if_pos hbad]
  | _ => simp [opcodeOfInstr] at hi

/-- Settles O8: by the opcode of the word; the ports, the reserved bits and the tags that the statement writes out are those
of `mayIssue`, `reservedMask` and `eventOfTag`. -/
theorem decodeChecksInOrder : Obligations.DecodeChecksInOrder := by
  refine ⟨fun s p rest hturns hfault => step_of_fault hfault (by simp [hturns]), fun s p w => ?_⟩
  intro op tag lvl listed reserved
  by_cases hasleep : p = .cons ∧ s.sleeping = true
  · rw [if_pos hasleep]
    exact verdict_of_asleep hasleep
  rw [if_neg hasleep]
  cases hop : opcodeOf (opField w) with
  | none =>
    rw [if_pos ((opcodeOf_opField_eq_none_iff w).mp hop)]
    exact verdict_of_decode_error hasleep (by simp [decode, hop])
  | some o =>
    have hnum : op = (opcodeBits o).toNat := by rw [opcodeOf_eq_some hop, opField_toNat]
    have hlegal : ¬(op = 0x0 ∨ op = 0xF) := fun h => by
      simp [(opcodeOf_opField_eq_none_iff w).mpr h] at hop
    have hlisted : listed = mayIssue p o := by
      cases p <;> simp only [listed, hnum] <;> cases o <;> rfl
    have hreserved : reserved ≠ 0 ↔ w &&& reservedMask (formatOf o) ≠ 0 := by
      rw [ne_eq, ne_eq, reserved_clear_iff]
      simp only [reserved, hnum]
      cases o <;> rfl
    have htagged : (op = 0x1 ∨ op = 0x4) ↔ (o = .signal ∨ o = .advance) := by
      rw [hnum]
      cases o <;> decide
    have hlevelled : (op = 0x7 ∨ op = 0x8 ∨ op = 0xB) ↔ o ∈ [Opcode.block, .unblock, .rdblk] := by
      rw [hnum]
      cases o <;> decide
    have hcmpsvc : op = 0xE ↔ o = .cmpsvc := by
      rw [hnum]
      cases o <;> decide
    have hdecode := decode_at hnum p
    rw [if_neg hlegal, hlisted]
    by_cases hport : mayIssue p o = false
    · rw [if_pos hport] at hdecode ⊢
      exact verdict_of_decode_error hasleep hdecode
    rw [if_neg hport] at hdecode ⊢
    by_cases hclear : w &&& reservedMask (formatOf o) ≠ 0
    · rw [if_pos hclear] at hdecode
      rw [if_pos (hreserved.mpr hclear)]
      exact verdict_of_decode_error hasleep hdecode
    rw [if_neg hclear] at hdecode
    rw [if_neg (mt hreserved.mp hclear)]
    by_cases htag : (o = .signal ∨ o = .advance) ∧ 6 ≤ tag
    · rw [if_pos ⟨htagged.mpr htag.1, htag.2⟩]
      exact verdict_of_decode_error hasleep (hdecode.trans (decodeOperands_badTag htag))
    rw [if_neg fun h => htag ⟨htagged.mp h.1, h.2⟩]
    obtain ⟨i, hi⟩ := decodeOperands_ok htag
    obtain ⟨rfl, -⟩ := decodeOperands_eq_ok (not_not.mp hclear) hi
    have hverdict := verdict_of_decode_ok hasleep (hdecode.trans hi)
    have hi_cmpsvc : opcodeOfInstr i = .cmpsvc ↔ i = .cmpsvc := by cases i <;> simp [opcodeOfInstr]
    have hword := encodeOfDecode p w i (hdecode.trans hi)
    by_cases hwait : op = 0xE ∧ s.cmpPend = false
    · rw [if_pos hwait, hverdict, if_pos ⟨hi_cmpsvc.mp (hcmpsvc.mp hwait.1), hwait.2⟩]
    · rw [if_neg hwait]
      rw [if_neg fun h => hwait ⟨hcmpsvc.mpr (hi_cmpsvc.mpr h.1), h.2⟩] at hverdict
      exact ⟨i, hverdict, hnum.symm, hword, fun hbad => exec_badLevel (hlevelled.mp hbad.1) hword hbad.2⟩

end Sys2Proof.Machine

/-!
PROOF. The machine invariant (spec/10_state.md R22 to R36): every operation that writes one of its elements keeps it, so
every command, every step and reset do; and the settled statements O2 and O3.
-/

namespace Sys2Proof.Machine

/-! ## The operations keep the invariant -/

/-- A count is in its range whatever the level, one outside the list too (R31). -/
theorem blkAt_lt {s : State} (hinv : s.Inv) (l : Nat) : blkAt s l < 2 ^ s.cfg.bcW := by
  obtain ⟨-, -, hcounts, -⟩ := hinv
  rw [blkAt, List.getD_eq_getElem?_getD]
  cases hread : s.blk[l - 1]? with
  | none => exact Nat.two_pow_pos _
  | some n => exact hcounts n (List.mem_of_getElem? hread)

/-- A count that is written within its range keeps the counts in range (R31). -/
theorem counts_set {s : State} (hinv : s.Inv) (k : Nat) {v : Nat} (hv : v < 2 ^ s.cfg.bcW) :
    (s.blk.set k v).length = s.cfg.m - 1 ∧ ∀ n ∈ s.blk.set k v, n < 2 ^ s.cfg.bcW := by
  obtain ⟨-, hlength, hcounts, -⟩ := hinv
  refine ⟨by rw [List.length_set, hlength], fun n hn => ?_⟩
  rcases List.mem_or_eq_of_mem_set hn with hold | rfl
  · exact hcounts n hold
  · exact hv

theorem setBlk_keeps_inv {s : State} (hinv : s.Inv) (l : Nat) {v : Nat} (hv : v < 2 ^ s.cfg.bcW) : (setBlk l v s).Inv := by
  obtain ⟨hlength, hcounts⟩ := counts_set hinv (l - 1) hv
  obtain ⟨hlegal, -, -, hrest⟩ := hinv
  exact ⟨hlegal, hlength, hcounts, hrest⟩

theorem emit_keeps_inv {s : State} (hinv : s.Inv) (e : OutEvent) : (emit e s).Inv := hinv

theorem raise_keeps_inv {s : State} (hinv : s.Inv) (c : Cause) : (raise c s).Inv := by
  obtain ⟨hlegal, hlength, hcounts, hnow, hcmp, hrequest, hawake, hasleep, -⟩ := hinv
  exact ⟨hlegal, hlength, hcounts, hnow, hcmp, hrequest, hawake, hasleep,
    iff_of_false nofun (causeCode_ne_zero c), causeCode_le c⟩

theorem post_keeps_inv {s : State} (hinv : s.Inv) (e : Event) : (post e s).Inv := by
  rw [post_eq]
  exact hinv

theorem wakeIfSleeping_keeps_inv {s : State} (hinv : s.Inv) : (wakeIfSleeping s).Inv := by
  rw [wakeIfSleeping_eq]
  obtain ⟨hlegal, hlength, hcounts, hnow, hcmp, hrequest, hawake, -, hfault⟩ := hinv
  refine ⟨hlegal, hlength, hcounts, hnow, hcmp, hrequest, fun _ => ?_, nofun, hfault⟩
  by_cases hs : s.sleeping = true
  · exact if_pos hs
  · exact (if_neg hs).trans (hawake (Bool.eq_false_iff.mpr hs))

theorem armCore_keeps_inv {s : State} (hinv : s.Inv) (us : Nat) : (armCore us s).Inv := by
  rw [armCore_eq]
  obtain ⟨hlegal, hlength, hcounts, hnow, -, -, hrest⟩ := hinv
  exact ⟨hlegal, hlength, hcounts, hnow, Nat.mod_lt _ (Nat.two_pow_pos _), nofun, hrest⟩

theorem tickCore_keeps_inv {s : State} (hinv : s.Inv) : (tickCore s).Inv := by
  rw [tickCore_eq]
  obtain ⟨hlegal, hlength, hcounts, -, hcmp, hrequest, hrest⟩ := hinv
  refine ⟨hlegal, hlength, hcounts, Nat.mod_lt _ (Nat.two_pow_pos _), hcmp, ?_, hrest⟩
  by_cases hmatch : s.armed = true ∧ (s.now + 1) % 2 ^ s.cfg.clkW = s.cmp
  · simp [hmatch]
  · simpa [hmatch] using hrequest

/-- The mode that GATE enters is one of the M-1 sleep modes, and MODE holds it (R33, R180). -/
theorem allowedMode_fits {s : State} (hinv : s.Inv) : (BitVec.ofNat 4 (allowedMode s)).toNat = allowedMode s := by
  obtain ⟨⟨-, -, -, -, -, hm, -⟩, -⟩ := hinv
  have hmode := allowedMode_le s
  rw [BitVec.toNat_ofNat]
  omega

theorem gateEmpty_keeps_inv {s : State} (hinv : s.Inv) : (gateEmpty s).Inv := by
  rw [gateEmpty_eq]
  split
  · exact hinv
  · next hsome =>
    have hfits := allowedMode_fits hinv
    obtain ⟨hlegal, hlength, hcounts, hnow, hcmp, hrequest, -, -, hfault⟩ := hinv
    refine ⟨hlegal, hlength, hcounts, hnow, hcmp, hrequest, nofun, fun _ => ?_, hfault⟩
    rw [hfits]
    exact ⟨Nat.pos_of_ne_zero hsome, allowedMode_le s⟩

/-- `Advance` keeps the invariant: it writes one count within its range and arms the deadline, by the three shapes. -/
theorem advanceCore_keeps_inv {s t : State} {e : Event} (hinv : s.Inv) (h : advanceCore e s = .ok t) : t.Inv := by
  obtain ⟨⟨⟨-, hnow, hsleeping, hmode, -, hfault, hfcause, -, hcfg, -⟩, -⟩, hshape⟩ := advanceCore_inv h
  have hlt := blkAt_lt hinv (deepest s.cfg)
  have hset := fun v => counts_set (v := v) hinv (deepest s.cfg - 1)
  obtain ⟨hlegal, hlength, hcounts, hnowlt, hcmplt, hrequest, hrest⟩ := hinv
  suffices hwritten : (t.blk.length = s.cfg.m - 1 ∧ ∀ n ∈ t.blk, n < 2 ^ s.cfg.bcW) ∧ t.cmp < 2 ^ s.cfg.clkW ∧
      ¬(t.armed = true ∧ t.cmpPend = true) by
    obtain ⟨⟨hlength', hcounts'⟩, hcmplt', hrequest'⟩ := hwritten
    rw [State.Inv, hcfg, hnow, hsleeping, hmode, hfault, hfcause]
    exact ⟨hlegal, hlength', hcounts', hnowlt, hcmplt', hrequest', hrest⟩
  rcases hshape with ⟨hblk, hcmp, harmed, hpend, -⟩ | ⟨-, -, -, hbelow, hblk, hcmp, -, hpend, -⟩ |
    ⟨-, -, -, -, hblk, hcmp, harmed, hpend, -⟩
  · rw [hblk, hcmp, harmed, hpend]
    exact ⟨⟨hlength, hcounts⟩, hcmplt, hrequest⟩
  · rw [hblk, hcmp, hpend]
    exact ⟨hset _ (by omega), Nat.mod_lt _ (Nat.two_pow_pos _), by simp⟩
  · rw [hblk, hcmp, harmed, hpend]
    exact ⟨hset _ (by omega), hcmplt, hrequest⟩

/-! ## The invariant of commands and steps -/

/-- Every command keeps the invariant, from any state, a faulted one too. -/
theorem exec_keeps_inv {i : Instr} {s t : State} (hinv : s.Inv) (hexec : exec i s = .next t) : t.Inv := by
  rcases exec_cases hexec with ⟨c, rfl, -⟩ | heffect
  · exact raise_keeps_inv hinv c
  cases i with
  | signal e =>
    rw [heffect]
    split
    · exact wakeIfSleeping_keeps_inv (post_keeps_inv hinv e)
    · exact post_keeps_inv hinv e
  | cmpsvc =>
    rcases heffect with ⟨-, rfl⟩ | ⟨-, rfl⟩
    · obtain ⟨hlegal, hlength, hcounts, hnow, hcmp, -, hrest⟩ := hinv
      have hcleared : State.Inv { s with cmpPend := false } := ⟨hlegal, hlength, hcounts, hnow, hcmp, by simp, hrest⟩
      exact wakeIfSleeping_keeps_inv (post_keeps_inv hcleared _)
    · exact hinv
  | advance e =>
    obtain ⟨u, hcore, rfl⟩ := heffect
    have hkept := advanceCore_keeps_inv hinv hcore
    exact hkept
  | gate =>
    rcases heffect with ⟨-, rfl⟩ | ⟨-, u, hcore, rfl⟩
    · exact gateEmpty_keeps_inv hinv
    · have hkept := advanceCore_keeps_inv (s := clearSlot s) hinv hcore
      exact hkept
  | arm off =>
    rw [heffect]
    exact armCore_keeps_inv hinv _
  | disarm =>
    obtain ⟨hlegal, hlength, hcounts, hnow, hcmp, -, hrest⟩ := hinv
    rw [heffect]
    exact ⟨hlegal, hlength, hcounts, hnow, hcmp, nofun, hrest⟩
  | tick =>
    rw [heffect]
    exact tickCore_keeps_inv hinv
  | block l | unblock l =>
    obtain ⟨hbound, rfl⟩ := heffect
    have hlt := blkAt_lt hinv l.toNat
    exact emit_keeps_inv (setBlk_keeps_inv hinv l.toNat (by omega)) _
  | haspend | take | rdstat | rdblk l | clrstat =>
    rw [heffect]
    exact hinv

/-- The reset state under legal parameters meets the invariant, whatever the draws (R240). -/
theorem initial_inv {c : Params} (hlegal : c.Legal) (now cmp : Nat) : (State.initial c now cmp).Inv := by
  refine ⟨hlegal, List.length_replicate, fun n hn => ?_, Nat.mod_lt _ (Nat.two_pow_pos _),
    Nat.mod_lt _ (Nat.two_pow_pos _), nofun, fun _ => rfl, nofun, iff_of_true rfl rfl, Nat.zero_le _⟩
  rw [List.eq_of_mem_replicate hn]
  exact Nat.two_pow_pos _

/-- In the reset state no mode is blocked and the rail is off (R240). -/
theorem initial_paired (c : Params) (now cmp : Nat) : (State.initial c now cmp).Paired := by
  have hzero : blkAt (State.initial c now cmp) (c.m - 1) = 0 := by
    simp only [blkAt, State.initial, List.getD_eq_getElem?_getD, List.getElem?_replicate]
    split <;> rfl
  exact ⟨iff_of_false nofun fun h => h rfl, hzero⟩

/-! ## The settled statements -/

/-- Settles O2: the reference parameters are legal ones. -/
theorem resetMeetsInvariant : Obligations.ResetMeetsInvariant := by
  have hreference : Params.reference.Legal := by decide
  exact ⟨fun c now cmp hlegal => ⟨initial_inv hlegal now cmp, initial_paired c now cmp⟩, initial_inv hreference 0 0,
    initial_paired _ 0 0⟩

/-- Settles O3: a step is a reset, which is an initial state up to the model's own fields, or a command, or it leaves all
that the invariant reads. -/
theorem stepKeepsInvariant : Obligations.StepKeepsInvariant := by
  intro s t hinv hstep
  rcases step_cases hstep with rfl | ⟨now, cmp, rs, bs, rest, rfl⟩ | ⟨p, rest, hagent⟩ | ⟨p, rest, w, rfl⟩
  · exact hinv
  · obtain ⟨hlegal, -⟩ := hinv
    have hreset := initial_inv hlegal now cmp
    exact hreset
  · rcases agentStep_cases hagent with rfl | ⟨c, rfl⟩ | ⟨i, hexec⟩
    · exact hinv
    · exact raise_keeps_inv (s := issue p { s with turns := rest }) hinv c
    · exact exec_keeps_inv (s := issue p { s with turns := rest }) hinv hexec
  · exact hinv

end Sys2Proof.Machine

/-!
PROOF. The sequencer beside its counters (spec/41_scheduler.md sections 1, 2 and 5; spec/43_power_gate.md section 4): the
entries with draws, the counter faults, the pairing of rail and block with FSM, and the settled statements O21, O24, O25,
O27, O29, O31, O32, O33 and O44.
-/

namespace Sys2Proof.Machine

/-! ## ADVANCE by the outcome of the table's entry -/

/-- ADVANCE where the table's entry raises a fault is fault entry (R120, R214). -/
theorem exec_advance_of_error {e : Event} {s : State} {c : Cause} (hentry : tableEntry s.fsm e s = .error c) :
    exec (.advance e) s = .next (raise c s) := by
  have hexec : exec (.advance e) s = finish s (advanceResult (advanceCore e s)) := rfl
  rw [hexec, advanceCore_of_error hentry]
  rfl

@[simp] theorem seqWord_awaitingWriteCompletion : seqWord .awaitingWriteCompletion = 2 := rfl

@[simp] theorem seqWord_awaitingReadCompletion : seqWord .awaitingReadCompletion = 3 := rfl

theorem tableEntry_powerUp_timer {s : State} (hfsm : s.fsm = .awaitingPowerUp) :
    tableEntry s.fsm .deferredTimerFired s = beginWrite s := by rw [hfsm]; rfl

theorem tableEntry_write_done {s : State} (hfsm : s.fsm = .awaitingWriteCompletion) :
    tableEntry s.fsm .transferDone s = beginRead s := by rw [hfsm]; rfl

theorem tableEntry_read_done {s : State} (hfsm : s.fsm = .awaitingReadCompletion) :
    tableEntry s.fsm .transferDone s = publishMeasurement s := by rw [hfsm]; rfl

/-- Settles O24: the two answers of `beginWrite_eq`. -/
theorem advanceBeginsWrite : Obligations.AdvanceBeginsWrite := by
  intro s hfsm
  have hentry := tableEntry_powerUp_timer hfsm
  rw [beginWrite_eq] at hentry
  by_cases haccepted : nextReply s = .accepted
  · rw [if_pos haccepted] at hentry ⊢
    simp [exec_advance_of_entry hentry, hfsm]
  · rw [if_neg haccepted] at hentry ⊢
    simp [exec_advance_of_entry hentry, hfsm]

/-- Settles O25: the two answers of `beginRead_eq`, the rejected one with a block to release. -/
theorem advanceBeginsRead : Obligations.AdvanceBeginsRead := by
  intro s hfsm hheld
  have hentry := tableEntry_write_done hfsm
  rw [beginRead_eq] at hentry
  by_cases haccepted : nextReply s = .accepted
  · rw [if_pos haccepted] at hentry ⊢
    simp [exec_advance_of_entry hentry, hfsm]
  · have hrejected : nextReply s = .rejected := by cases hr : nextReply s <;> simp_all
    have hblock : blkAt s (deepest s.cfg) ≠ 0 := hheld hrejected
    rw [if_neg haccepted, if_neg hblock] at hentry
    rw [if_neg haccepted]
    simp [exec_advance_of_entry hentry, hfsm, deepest]

/-- Settles O27: with a block to release `publishMeasurement_eq` says what the entry writes. -/
theorem advancePublishes : Obligations.AdvancePublishes := by
  intro s hfsm (hheld : blkAt s (deepest s.cfg) ≠ 0)
  have hentry := tableEntry_read_done hfsm
  rw [publishMeasurement_eq, if_neg hheld] at hentry
  refine ⟨nextReceived_length s, ?_⟩
  simp [exec_advance_of_entry hentry, hfsm, deepest, decodeReceived]

/-- Settles O29: each entry named is one whose counter operation fails. -/
theorem advanceCounterFaults : Obligations.AdvanceCounterFaults := by
  refine ⟨fun s hoff (hfull : blkAt s (deepest s.cfg) = 2 ^ s.cfg.bcW - 1) => ?overflow,
    fun e s hpair (hzero : blkAt s (deepest s.cfg) = 0) => ?underflow⟩
  case overflow =>
    have hentry : tableEntry s.fsm .measureRequested s = startAcquisition s := by rw [hoff]; rfl
    rw [startAcquisition_eq, if_pos hfull] at hentry
    exact exec_advance_of_error hentry
  case underflow =>
    have hentry : tableEntry s.fsm e s = .error .blkUnderflow := by
      rcases hpair with hpair | ⟨hfsm, rfl⟩ | ⟨hfsm, rfl, hrejected⟩
      · rw [tableEntry_of_teardown hpair, tearDownToOff_eq (teardownPairs_ne_off hpair), if_pos hzero]
      · rw [tableEntry_read_done hfsm, publishMeasurement_eq, if_pos hzero]
      · have hnot : nextReply s ≠ .accepted := by simp [hrejected]
        rw [tableEntry_write_done hfsm, beginRead_eq, if_neg hnot, if_pos hzero]
    exact exec_advance_of_error hentry

/-- An `Advance` writes no count but that of the deepest mode (R123, R125). -/
theorem advanceCore_keeps_shallow {e : Event} {s t : State} (h : advanceCore e s = .ok t) {l : Nat} (hl : 1 ≤ l)
    (hdeep : l < s.cfg.m - 1) : blkAt t l = blkAt s l := by
  have hother : deepest s.cfg - 1 ≠ l - 1 := by
    unfold deepest
    omega
  have hset : ∀ v, t.blk = s.blk.set (deepest s.cfg - 1) v → blkAt t l = blkAt s l := fun v hblk =>
    (blkAt_congr (t := t) (s := setBlk (deepest s.cfg) v s) hblk l).trans (blkAt_setBlk_of_ne s _ l v hother)
  obtain ⟨-, ⟨hblk, -⟩ | ⟨-, -, -, -, hblk, -⟩ | ⟨-, -, -, -, hblk, -⟩⟩ := advanceCore_inv h
  · exact blkAt_congr hblk l
  · exact hset _ hblk
  · exact hset _ hblk

/-- Settles O21: the two outcomes of ADVANCE, with the frame of `advanceCore_inv` and the faults of `advanceCore_error`. -/
theorem advanceReturnsState : Obligations.AdvanceReturnsState := by
  refine ⟨encodedT_of_opcode (op := .advance) rfl (mayIssue_eq_consumerOnly (by decide) (by decide) (by decide))
    fun _ => rfl, fun e s hclear => ?_⟩
  obtain ⟨t, hexec⟩ := everyCommandCompletes (.advance e) s
  refine ⟨t, hexec, ?_⟩
  rcases execAdvance_inv hexec with ⟨u, hcore, rfl⟩ | ⟨c, hcore, rfl⟩
  · obtain ⟨⟨⟨hslot, hnow, hsleeping, hmode, hdrop, hfault, -⟩, -⟩, -⟩ := advanceCore_inv hcore
    refine .inl ⟨hfault.trans hclear, hslot, hnow, hsleeping, hmode, hdrop,
      fun l h1 h2 => advanceCore_keeps_shallow hcore h1 h2, ?_⟩
    cases u.fsm <;> rfl
  · rcases advanceCore_error hcore with ⟨rfl, hoff, he, hfull⟩ | ⟨rfl, hon, hzero⟩
    · exact .inr (.inl ⟨hoff, he, hfull, rfl⟩)
    · exact .inr (.inr ⟨hon, hzero, rfl⟩)

/-! ## The pairing (R136, R137) -/

/-- Where the pairing holds, no counter operation of `Advance` fails: in SensorOff the count of 0 is below the limit, and
outside it there is a block to release. -/
theorem advanceCore_ok_of_paired {s : State} (hinv : s.Inv) (hpaired : s.Paired) (e : Event) :
    ∃ t, advanceCore e s = .ok t := by
  cases hcore : advanceCore e s with
  | ok t => exact ⟨t, rfl⟩
  | error c =>
    obtain ⟨⟨-, -, -, -, -, -, hbc, -⟩, -⟩ := hinv
    obtain ⟨-, hcount⟩ := hpaired
    have hlimit : 2 ^ 1 ≤ 2 ^ s.cfg.bcW := Nat.pow_le_pow_right (by omega) hbc
    rcases advanceCore_error hcore with ⟨-, hoff, -, hfull⟩ | ⟨-, hon, hzero⟩
    · rw [if_pos hoff] at hcount
      unfold deepest at hfull
      omega
    · rw [if_neg hon] at hcount
      unfold deepest at hzero
      omega

/-- `Advance` keeps the pairing: it starts an acquisition with rail and block, ends one with both, or leaves both. -/
theorem advanceCore_keeps_paired {s t : State} {e : Event} (hinv : s.Inv) (hpaired : s.Paired)
    (h : advanceCore e s = .ok t) : t.Paired := by
  obtain ⟨⟨⟨-, -, -, -, -, -, -, -, hcfg, -⟩, -⟩, hshape⟩ := advanceCore_inv h
  obtain ⟨⟨-, -, -, -, hm, -⟩, hlength, -⟩ := hinv
  obtain ⟨hrail, hcount⟩ := hpaired
  have hset : ∀ v, t.blk = s.blk.set (deepest s.cfg - 1) v → blkAt t (s.cfg.m - 1) = v := fun v hblk =>
    (blkAt_congr (t := t) (s := setBlk (deepest s.cfg) v s) hblk _).trans
      (blkAt_setBlk_self s _ v (by rw [hlength, deepest]; omega))
  rw [State.Paired, hcfg]
  rcases hshape with ⟨hblk, -, -, -, -, hfsm⟩ | ⟨hoff, hon, hrailOn, -, hblk, -⟩ | ⟨hon, hoff, hrailOff, -, hblk, -⟩
  · rw [blkAt_congr hblk]
    rcases hfsm with ⟨hoff, hoff', hrail'⟩ | ⟨hon, hon', hrail'⟩ <;> simp_all
  · rw [if_pos hoff] at hcount
    rw [hset _ hblk, deepest, hcount, hon]
    exact ⟨iff_of_true hrailOn nofun, rfl⟩
  · rw [if_neg hon] at hcount
    rw [hset _ hblk, deepest, hcount, hoff]
    exact ⟨iff_of_false (by simp [hrailOff]) (by simp), rfl⟩

/-- A count written at a legal level other than the deepest leaves the pairing. -/
theorem setBlk_keeps_paired {s : State} (hpaired : s.Paired) {lvl : BitVec 4} (hlegal : LegalLevel s.cfg lvl)
    (hother : lvl.toNat ≠ s.cfg.m - 1) (v : Nat) : (setBlk lvl.toNat v s).Paired := by
  have hcount : blkAt (setBlk lvl.toNat v s) (s.cfg.m - 1) = blkAt s (s.cfg.m - 1) :=
    blkAt_setBlk_of_ne s _ _ v (by omega)
  rw [State.Paired, setBlk_cfg, hcount]
  exact hpaired

/-- The pairing reads the rail, FSM, the counts and the parameters alone. -/
theorem paired_congr {s t : State} (hrail : t.railEn = s.railEn) (hfsm : t.fsm = s.fsm) (hblk : t.blk = s.blk)
    (hcfg : t.cfg = s.cfg) (hpaired : s.Paired) : t.Paired := by
  rw [State.Paired, hrail, hfsm, hcfg, blkAt_congr hblk]
  exact hpaired

/-- Settles O31: ADVANCE and GATE run an `Advance` that raises no fault, or GATE sleeps. -/
theorem pairedAdvanceNeverFaults : Obligations.PairedAdvanceNeverFaults := by
  intro s hinv hpaired hclear
  refine ⟨fun e => ?advance, ?gate⟩
  case advance =>
    obtain ⟨u, hcore⟩ := advanceCore_ok_of_paired hinv hpaired e
    obtain ⟨⟨⟨-, -, -, -, -, hfault, -⟩, -⟩, -⟩ := advanceCore_inv hcore
    have hexec : exec (.advance e) s = finish s (advanceResult (advanceCore e s)) := rfl
    rw [hexec, hcore]
    exact ⟨_, rfl, hfault.trans hclear⟩
  case gate =>
    obtain ⟨u, hcore⟩ := advanceCore_ok_of_paired (s := clearSlot s) hinv hpaired s.slot
    obtain ⟨⟨⟨-, -, -, -, -, hfault, -⟩, -⟩, -⟩ := advanceCore_inv hcore
    rw [exec_gate_eq, gateTake, hcore]
    split
    · refine ⟨_, rfl, ?_⟩
      rw [gateEmpty_eq]
      split <;> exact hclear
    · exact ⟨_, rfl, hfault.trans hclear⟩

/-- Settles O32: only ADVANCE, GATE, BLOCK and UNBLOCK write what the pairing reads. -/
theorem pairingIsKept : Obligations.PairingIsKept := by
  intro i s t hinv hpaired hshallow hexec
  obtain ⟨hcfg, -⟩ := exec_fault_entry hexec
  obtain ⟨-, hfsm, -, -, -, -, hrail, hblk, -⟩ := writtenOnlyByNamedCommands i s t hexec
  cases i with
  | advance e =>
    rcases execAdvance_inv hexec with ⟨u, hcore, rfl⟩ | ⟨c, -, rfl⟩
    · have hkept := advanceCore_keeps_paired hinv hpaired hcore
      exact hkept
    · exact hpaired
  | gate =>
    rcases execGate_inv hexec with ⟨-, rfl⟩ | ⟨-, u, hcore, rfl⟩ | ⟨-, c, -, rfl⟩
    · rw [gateEmpty_eq]
      split <;> exact hpaired
    · have hkept := advanceCore_keeps_paired (s := clearSlot s) hinv hpaired hcore
      exact hkept
    · exact hpaired
  | block l =>
    rcases execBlock_inv hexec with ⟨-, rfl⟩ | ⟨-, -, rfl⟩ | ⟨hlegal, -, rfl⟩
    · exact hpaired
    · exact hpaired
    · have hkept := setBlk_keeps_paired hpaired hlegal (of_decide_eq_false hshallow) (blkAt s l.toNat + 1)
      exact hkept
  | unblock l =>
    rcases execUnblock_inv hexec with ⟨-, rfl⟩ | ⟨-, -, rfl⟩ | ⟨hlegal, -, rfl⟩
    · exact hpaired
    · exact hpaired
    · have hkept := setBlk_keeps_paired hpaired hlegal (of_decide_eq_false hshallow) (blkAt s l.toNat - 1)
      exact hkept
  | _ =>
    exact paired_congr (hrail (by simp [opcodeOfInstr])) (hfsm (by simp [opcodeOfInstr]))
      (hblk (by simp [opcodeOfInstr])) hcfg hpaired

/-- Settles O44: `allowedModeIsDeepestUnblocked`, with the count of the deepest mode that the pairing gives. -/
theorem sleepDepthFollowsSequencer : Obligations.SleepDepthFollowsSequencer := by
  intro s hinv hpaired hshallow
  obtain ⟨⟨-, -, -, -, hm, -⟩, -⟩ := hinv
  obtain ⟨-, hcount⟩ := hpaired
  obtain ⟨hdeepest, hfree, hblocked⟩ := allowedModeIsDeepestUnblocked s
  by_cases hoff : s.fsm = .sensorOff
  · rw [if_pos hoff] at hcount ⊢
    by_contra hne
    have hpos := hblocked (by omega)
    by_cases hnext : allowedMode s + 1 = s.cfg.m - 1
    · rw [hnext] at hpos
      omega
    · have := hshallow (allowedMode s + 1) (by omega) (by omega)
      omega
  · rw [if_neg hoff] at hcount ⊢
    have hbelow : allowedMode s ≠ s.cfg.m - 1 := fun h => by
      have := hfree (s.cfg.m - 1) (by omega) (by omega)
      omega
    by_contra hne
    have hpos := hblocked (by omega)
    have := hshallow (allowedMode s + 1) (by omega) (by omega)
    omega

/-! ## What `Advance` does not read (R135) -/

/-- The state with another slot and another drop count. -/
def withMailbox (a : Event) (d : BitVec 16) (s : State) : State := { s with slot := a, dropCnt := d }

/-- A post is a write of the mailbox, of values that read the mailbox alone (R100). -/
theorem post_congr {e : Event} {s t : State} (hslot : t.slot = s.slot) (hdrop : t.dropCnt = s.dropCnt) :
    post e t = withMailbox (post e s).slot (post e s).dropCnt t := by
  rw [post_eq, post_eq, hslot, hdrop]
  rfl

section

variable (a : Event) (d : BitVec 16) (s : State)

theorem tearDownToOff_withMailbox (q : SeqState) :
    tearDownToOff q (withMailbox a d s) = (tearDownToOff q s).map (Prod.map id (withMailbox a d)) := by
  by_cases hq : q = .sensorOff
  · rw [hq, tearDownToOff_off, tearDownToOff_off]
    rfl
  · rw [tearDownToOff_eq hq, tearDownToOff_eq hq, apply_ite (Except.map _)]
    rfl

theorem startAcquisition_withMailbox :
    startAcquisition (withMailbox a d s) = (startAcquisition s).map (Prod.map id (withMailbox a d)) := by
  rw [startAcquisition_eq, startAcquisition_eq, armCore_eq, armCore_eq, apply_ite (Except.map _)]
  rfl

theorem beginWrite_withMailbox :
    beginWrite (withMailbox a d s) = (beginWrite s).map (Prod.map id (withMailbox a d)) := by
  rw [beginWrite_eq, beginWrite_eq, apply_ite (Except.map _)]
  rfl

theorem beginRead_withMailbox :
    beginRead (withMailbox a d s) = (beginRead s).map (Prod.map id (withMailbox a d)) := by
  rw [beginRead_eq, beginRead_eq, apply_ite (Except.map _), apply_ite (Except.map _)]
  rfl

theorem publishMeasurement_withMailbox :
    publishMeasurement (withMailbox a d s) = (publishMeasurement s).map (Prod.map id (withMailbox a d)) := by
  rw [publishMeasurement_eq, publishMeasurement_eq, apply_ite (Except.map _)]
  rfl

/-- No entry of the table reads or writes the mailbox. -/
theorem tableEntry_withMailbox (q : SeqState) (e : Event) :
    tableEntry q e (withMailbox a d s) = (tableEntry q e s).map (Prod.map id (withMailbox a d)) := by
  cases q <;> cases e <;> simp only [tableEntry, tearDownToOff_withMailbox, startAcquisition_withMailbox,
    beginWrite_withMailbox, beginRead_withMailbox, publishMeasurement_withMailbox] <;> rfl

theorem advanceCore_withMailbox (e : Event) :
    advanceCore e (withMailbox a d s) = (advanceCore e s).map (withMailbox a d) := by
  have hentry := tableEntry_withMailbox a d s s.fsm e
  cases hcase : tableEntry s.fsm e s with
  | ok r =>
    rw [hcase] at hentry
    rw [advanceCore_of_ok (s := withMailbox a d s) hentry, advanceCore_of_ok hcase, enterState_eq, enterState_eq]
    rfl
  | error c =>
    rw [hcase] at hentry
    rw [advanceCore_of_error (s := withMailbox a d s) hentry, advanceCore_of_error hcase]
    rfl

/-- ADVANCE leaves the mailbox and SLEEPING, and from another mailbox it does the same, a fault included (R120, R214). -/
theorem exec_advance_withMailbox (e : Event) :
    ∃ t, exec (.advance e) s = .next t ∧ t.slot = s.slot ∧ t.dropCnt = s.dropCnt ∧ t.sleeping = s.sleeping ∧
      exec (.advance e) (withMailbox a d s) = .next (withMailbox a d t) := by
  have hexec : ∀ u, exec (.advance e) u = finish u (advanceResult (advanceCore e u)) := fun _ => rfl
  have hmailbox := advanceCore_withMailbox a d s e
  rw [hexec, hexec, hmailbox]
  cases hcore : advanceCore e s with
  | ok t =>
    obtain ⟨⟨⟨hslot, -, hsleeping, -, hdrop, -⟩, -⟩, -⟩ := advanceCore_inv hcore
    exact ⟨_, rfl, hslot, hdrop, hsleeping, rfl⟩
  | error c => exact ⟨_, rfl, rfl, rfl, rfl, rfl⟩

end

/-- A SIGNAL that wakes nobody is its post (R101). -/
theorem exec_signal_of_no_wake {s : State} (hquiet : s.sleeping = true → ∀ k, s.port ≠ .prod k) (e : Event) :
    exec (.signal e) s = .next (post e s) := by
  by_cases hproducer : isProducer s.port = true
  · obtain ⟨k, hport⟩ := (isProducer_iff s.port).mp hproducer
    have hawake : ¬s.sleeping = true := fun hasleep => hquiet hasleep k hport
    have hexec : exec (.signal e) s = .next (wakeIfSleeping (post e s)) := execSignal_producer hproducer e
    simp [hexec, wakeIfSleeping, post_eq, hawake]
  · exact execSignal_quiet (Bool.eq_false_iff.mpr hproducer) e

/-- Settles O33: SIGNAL writes the mailbox alone, and ADVANCE neither reads nor writes it. -/
theorem signalCommutesWithAdvance : Obligations.SignalCommutesWithAdvance := by
  intro e f s hawake
  obtain ⟨t, hadvance, hslot, hdrop, hsleeping, hmailbox⟩ :=
    exec_advance_withMailbox (post e s).slot (post e s).dropCnt s f
  have hbefore : exec (.signal e) s = .next (withMailbox (post e s).slot (post e s).dropCnt s) := by
    rw [exec_signal_of_no_wake (by simp [hawake]), ← post_congr rfl rfl]
  have hafter : exec (.signal e) t = .next (withMailbox (post e s).slot (post e s).dropCnt t) := by
    rw [exec_signal_of_no_wake (by simp [hsleeping, hawake]), post_congr hslot hdrop]
  simp only [execAll, hbefore, hadvance, hmailbox, hafter]

end Sys2Proof.Machine

/-!
PROOF. Runs of posts (spec/20_memory.md R57; spec/40_mailbox.md R104), and the settled statement O19.
-/

namespace Sys2Proof.Machine

/-! ## Runs -/

theorem runOn_cons {i : Instr} {p : Port} {s t : State} (hexec : exec i { s with port := p } = .next t)
    (rest : List (Port × Instr)) : runOn ((p, i) :: rest) s = runOn rest t := by
  rw [runOn, hexec]

theorem runOn_append {cs : List (Port × Instr)} {s t : State} (hrun : runOn cs s = .next t)
    (ds : List (Port × Instr)) : runOn (cs ++ ds) s = runOn ds t := by
  induction cs generalizing s with
  | nil =>
    obtain rfl := Host.Outcome.next.inj hrun
    rfl
  | cons c rest ih =>
    obtain ⟨p, i⟩ := c
    obtain ⟨u, hexec⟩ := everyCommandCompletes i { s with port := p }
    rw [runOn_cons hexec] at hrun
    rw [List.cons_append, runOn_cons hexec, ih hrun]

/-- A TAKE at the end of a run reads and empties the slot that the run leaves (R103). -/
theorem runOn_take {cs : List (Port × Instr)} {s t : State} (hrun : runOn cs s = .next t) :
    runOn (cs ++ [(.cons, .take)]) s = .next { t with port := .cons, slot := .idle, res := tagWord t.slot } := by
  rw [runOn_append hrun]
  rfl

theorem eventsPosted_cons {i : Instr} {p : Port} {s t : State} (hexec : exec i { s with port := p } = .next t)
    (rest : List (Port × Instr)) : eventsPosted ((p, i) :: rest) s = eventPosted i s :: eventsPosted rest t := by
  rw [eventsPosted, hexec]

/-- The port does not decide what is posted. -/
theorem eventPosted_port (i : Instr) (p : Port) (s : State) : eventPosted i { s with port := p } = eventPosted i s := by
  cases i <;> rfl

/-! ## What a run of posts leaves in the mailbox (R57, R100, R104) -/

/-- The events of a run that count as posts: those that are not Idle. -/
abbrev postsOf (cs : List (Port × Instr)) (s : State) : List Event := (eventsPosted cs s).filter fun e => e != .idle

theorem postsOf_cons {i : Instr} {p : Port} {s t : State} (hexec : exec i { s with port := p } = .next t)
    (rest : List (Port × Instr)) :
    postsOf ((p, i) :: rest) s =
      if eventPosted i s = .idle then postsOf rest t else eventPosted i s :: postsOf rest t := by
  rw [postsOf, eventsPosted_cons hexec]
  by_cases hidle : eventPosted i s = .idle <;> simp [hidle]

/-- A run without TAKE, GATE and CLRSTAT leaves the slot with the event it held, else with the first post, and counts every
post that found the slot full, saturating. -/
theorem runOn_posts (cs : List (Port × Instr)) (s : State)
    (hcs : ∀ c ∈ cs, c.2 ≠ .take ∧ c.2 ≠ .gate ∧ c.2 ≠ .clrstat) :
    ∃ t, runOn cs s = .next t ∧
      t.slot = (if s.slot = .idle then (postsOf cs s).head?.getD .idle else s.slot) ∧
      t.dropCnt.toNat =
        min 65535 (s.dropCnt.toNat + ((postsOf cs s).length - if s.slot = .idle then 1 else 0)) := by
  induction cs generalizing s with
  | nil =>
    have := s.dropCnt.isLt
    refine ⟨s, rfl, ?_, ?_⟩
    · simp +contextual [postsOf, eventsPosted]
    · simp only [postsOf, eventsPosted, List.filter_nil, List.length_nil]
      omega
  | cons c rest ih =>
    obtain ⟨p, i⟩ := c
    obtain ⟨⟨htake, hgate, hclr⟩, hrest⟩ := List.forall_mem_cons.mp hcs
    obtain ⟨u, hexec⟩ := everyCommandCompletes i { s with port := p }
    have hslot := exec_slot htake hgate hexec
    have hdrop := exec_dropCnt hclr hexec
    obtain ⟨t, hrun, htslot, htdrop⟩ := ih u hrest
    refine ⟨t, (runOn_cons hexec rest).trans hrun, ?_⟩
    rw [postsOf_cons hexec]
    rw [eventPosted_port, post_eq] at hslot hdrop
    generalize eventPosted i s = e at hslot hdrop
    generalize postsOf rest u = posts at htslot htdrop
    dsimp only at hslot hdrop
    by_cases hidle : e = .idle
    · simp_all
    · have hcount := satSucc_toNat s.dropCnt
      by_cases hempty : s.slot = .idle
      · simp_all
      · simp_all
        omega

/-- Without a waking SIGNAL, a run of SIGNALs writes the mailbox and the port noted and nothing else. -/
theorem runOn_signals_frame (es : List (Port × Event)) {s t : State}
    (hquiet : s.sleeping = true → ∀ pe ∈ es, ∀ k, pe.1 ≠ .prod k)
    (hrun : runOn (es.map fun pe => (pe.1, .signal pe.2)) s = .next t) :
    t = { s with port := t.port, slot := t.slot, dropCnt := t.dropCnt } := by
  induction es generalizing s with
  | nil =>
    obtain rfl := Host.Outcome.next.inj hrun
    rfl
  | cons pe rest ih =>
    have hhead : s.sleeping = true → ∀ k, pe.1 ≠ .prod k := fun hs => hquiet hs pe List.mem_cons_self
    have hexec := exec_signal_of_no_wake (s := { s with port := pe.1 }) hhead pe.2
    rw [post_eq] at hexec
    rw [List.map_cons, runOn_cons hexec] at hrun
    have hkept := fun hq => ih hq hrun
    exact hkept fun hs qe hq => hquiet hs qe (List.mem_cons_of_mem pe hq)

/-- A run of SIGNALs posts their events. -/
theorem eventsPosted_signals (es : List (Port × Event)) (s : State) :
    eventsPosted (es.map fun pe => (pe.1, .signal pe.2)) s = es.map Prod.snd := by
  induction es generalizing s with
  | nil => rfl
  | cons pe rest ih =>
    obtain ⟨u, hexec⟩ := everyCommandCompletes (.signal pe.2) { s with port := pe.1 }
    rw [List.map_cons, List.map_cons, eventsPosted_cons hexec, ih]
    rfl

theorem dropCnt_eq_of_toNat {d : BitVec 16} {n : Nat} (h : d.toNat = min 65535 n) : d = BitVec.ofNat 16 (min 65535 n) := by
  rw [← h, BitVec.ofNat_toNat, BitVec.setWidth_eq]

/-- Settles O19: `runOn_posts` from an empty slot, and for SIGNALs the frame of the run. -/
theorem firstPostSurvives : Obligations.FirstPostSurvives := by
  refine ⟨fun cs s hempty hcs => ?all, fun es s hempty hquiet => ?signals⟩
  case all =>
    obtain ⟨t, hrun, hslot, hdrop⟩ := runOn_posts cs s hcs
    rw [if_pos hempty] at hslot hdrop
    exact ⟨_, runOn_take hrun, rfl, by rw [hslot]; rfl, dropCnt_eq_of_toNat hdrop⟩
  case signals =>
    have hcs : ∀ c ∈ es.map fun pe => (pe.1, Instr.signal pe.2), c.2 ≠ .take ∧ c.2 ≠ .gate ∧ c.2 ≠ .clrstat := by
      intro c hc
      obtain ⟨pe, -, rfl⟩ := List.mem_map.mp hc
      exact ⟨nofun, nofun, nofun⟩
    obtain ⟨t, hrun, hslot, hdrop⟩ := runOn_posts _ s hcs
    rw [if_pos hempty, postsOf, eventsPosted_signals] at hslot hdrop
    have hframe := runOn_signals_frame es hquiet hrun
    intro posts
    rw [runOn_take hrun, hframe, hslot, dropCnt_eq_of_toNat hdrop]
    simp [posts, tagWord, hempty]

end Sys2Proof.Machine

/-!
PROOF. The deadline along runs (spec/42_deferred_trigger.md R165, R166): what a command that leaves the deadline does to the
counter and the comparator, and the settled statements O38 and O39.
-/

namespace Sys2Proof.Machine

/-! ## Commands that leave the deadline -/

theorem execAll_cons {i : Instr} {s t : State} (hexec : exec i s = .next t) (rest : List Instr) :
    execAll (i :: rest) s = execAll rest t := by
  rw [execAll, hexec]

theorem exec_tick (s : State) : exec .tick s = .next (tickCore s) := rfl

/-- From SensorOff only MeasureRequested leaves SensorOff (R133). -/
theorem advanceCore_stays_off {e : Event} {s t : State} (hoff : s.fsm = .sensorOff) (he : e ≠ .measureRequested)
    (h : advanceCore e s = .ok t) : t.fsm = .sensorOff := by
  obtain ⟨u, hentry⟩ : ∃ u, tableEntry s.fsm e s = .ok (.sensorOff, u) := by
    rw [hoff]
    cases e <;> simp_all [tableEntry, unmatched, tearDownToOff_off]
  obtain rfl := Except.ok.inj ((advanceCore_of_ok hentry).symm.trans h)
  rw [enterState_eq]

/-- An `Advance` of another event than MeasureRequested arms nothing. -/
theorem advanceCore_leaves_deadline {e : Event} {s t : State} (he : e ≠ .measureRequested)
    (h : advanceCore e s = .ok t) : t.cmp = s.cmp ∧ t.armed = s.armed ∧ t.cmpPend = s.cmpPend := by
  obtain ⟨-, ⟨-, hcmp, harmed, hpend, -⟩ | ⟨hoff, hon, -⟩ | ⟨-, -, -, -, -, hcmp, harmed, hpend, -⟩⟩ := advanceCore_inv h
  · exact ⟨hcmp, harmed, hpend⟩
  · rw [advanceCore_stays_off hoff he h] at hon
    cases hon
  · exact ⟨hcmp, harmed, hpend⟩

/-- A command that leaves the deadline and does not count leaves NOW, CMP and ARMED, and raises no request; CMPSVC alone
serves one (R163, R164). -/
theorem exec_leaves_deadline {i : Instr} {s t : State} (hleaves : leavesDeadline i = true) (htick : i ≠ .tick)
    (hexec : exec i s = .next t) :
    t.cfg = s.cfg ∧ t.now = s.now ∧ t.cmp = s.cmp ∧ t.armed = s.armed ∧ (s.cmpPend = false → t.cmpPend = false) ∧
      (i ≠ .cmpsvc → t.cmpPend = s.cmpPend) := by
  obtain ⟨-, -, hnow, hcmp, harmed, hpend, -⟩ := writtenOnlyByNamedCommands i s t hexec
  obtain ⟨hcfg, -⟩ := exec_fault_entry hexec
  refine ⟨hcfg, hnow ?_, ?_⟩
  · cases i <;> simp_all [opcodeOfInstr]
  cases i with
  | arm off => cases hleaves
  | disarm => cases hleaves
  | gate => cases hleaves
  | tick => exact absurd rfl htick
  | cmpsvc =>
    refine ⟨hcmp (by simp [opcodeOfInstr]), harmed (by simp [opcodeOfInstr]), fun hidle => ?_, fun h => absurd rfl h⟩
    obtain rfl := Host.Outcome.next.inj ((execCmpsvc_idle hidle).symm.trans hexec)
    exact hidle
  | advance e =>
    rcases execAdvance_inv hexec with ⟨u, hcore, rfl⟩ | ⟨c, -, rfl⟩
    · obtain ⟨hcmp, harmed, hpend⟩ := advanceCore_leaves_deadline (of_decide_eq_true hleaves) hcore
      exact ⟨hcmp, harmed, hpend.trans, fun _ => hpend⟩
    · exact ⟨rfl, rfl, id, fun _ => rfl⟩
  | _ =>
    have hpend := hpend (by simp [opcodeOfInstr])
    exact ⟨hcmp (by simp [opcodeOfInstr]), harmed (by simp [opcodeOfInstr]), hpend.trans, fun _ => hpend⟩

/-! ## Runs after a match and before it -/

/-- A TICK while not armed counts and does nothing else (R166). -/
theorem tickCore_disarmed {s : State} (hdisarmed : s.armed = false) :
    tickCore s = { s with now := (s.now + 1) % 2 ^ s.cfg.clkW } := by
  simp [tickCore, hdisarmed]

/-- While not armed, commands that leave the deadline only count; a request stays until a CMPSVC serves it. -/
theorem execAll_disarmed (cs : List Instr) (s : State) (hcs : ∀ i ∈ cs, leavesDeadline i = true)
    (hdisarmed : s.armed = false) (hnow : s.now < 2 ^ s.cfg.clkW) :
    ∃ t, execAll cs s = .next t ∧ t.now = (s.now + cs.count .tick) % 2 ^ s.cfg.clkW ∧ t.armed = false ∧
      (s.cmpPend = true → .cmpsvc ∉ cs → t.cmpPend = true) := by
  induction cs generalizing s with
  | nil => exact ⟨s, rfl, (Nat.mod_eq_of_lt hnow).symm, hdisarmed, fun hpend _ => hpend⟩
  | cons i rest ih =>
    obtain ⟨hi, hrest⟩ := List.forall_mem_cons.mp hcs
    by_cases htick : i = .tick
    · subst htick
      have hexec := (exec_tick s).trans (congrArg _ (tickCore_disarmed hdisarmed))
      obtain ⟨t, hrun, hnow', harmed, hpend⟩ := ih { s with now := (s.now + 1) % 2 ^ s.cfg.clkW } hrest hdisarmed
        (Nat.mod_lt _ (Nat.two_pow_pos _))
      refine ⟨t, (execAll_cons hexec rest).trans hrun, ?_, harmed,
        fun hp hno => hpend hp (List.not_mem_of_not_mem_cons hno)⟩
      rw [hnow', List.count_cons_self, Nat.mod_add_mod]
      congr 1
      omega
    · obtain ⟨u, hexec⟩ := everyCommandCompletes i s
      obtain ⟨hcfg, hunow, -, huarmed, -, hupend⟩ := exec_leaves_deadline hi htick hexec
      obtain ⟨t, hrun, hnow', harmed, hpend⟩ := ih u hrest (huarmed.trans hdisarmed) (by rwa [hunow, hcfg])
      refine ⟨t, (execAll_cons hexec rest).trans hrun, ?_, harmed, fun hp hno => ?_⟩
      · rw [hnow', hunow, hcfg, List.count_cons_of_ne htick]
      · have hfirst : i ≠ .cmpsvc := fun h => hno (h ▸ List.mem_cons_self)
        exact hpend ((hupend hfirst).trans hp) (List.not_mem_of_not_mem_cons hno)

/-- The state just armed with a delay of `d` ticks, which the counter cannot lap (R160). -/
structure JustArmed (d : Nat) (s : State) : Prop where
  now_lt : s.now < 2 ^ s.cfg.clkW
  pos : 1 ≤ d
  lt : d < 2 ^ s.cfg.clkW
  armed : s.armed = true
  idle : s.cmpPend = false
  cmp_eq : s.cmp = (s.now + d) % 2 ^ s.cfg.clkW

/-- The first TICK of a deadline one tick away is the match (R163). -/
theorem tickCore_last {s : State} (h : JustArmed 1 s) :
    tickCore s = { s with now := (s.now + 1) % 2 ^ s.cfg.clkW, cmpPend := true, armed := false } := by
  simp [tickCore, h.armed, h.cmp_eq]

/-- A TICK with more than one tick to go leaves the deadline one tick closer (R163). -/
theorem tickCore_counts {d : Nat} {s : State} (h : JustArmed d s) (hd : 1 < d) :
    tickCore s = { s with now := (s.now + 1) % 2 ^ s.cfg.clkW } ∧ JustArmed (d - 1) (tickCore s) := by
  have hnow := h.now_lt
  have hlt := h.lt
  have hno : (s.now + 1) % 2 ^ s.cfg.clkW ≠ s.cmp := by
    rw [h.cmp_eq]
    intro heq
    have hmod : (s.now + 1) % 2 ^ s.cfg.clkW = (s.now + 1 + (d - 1)) % 2 ^ s.cfg.clkW := by
      rw [heq]
      congr 1
      omega
    have hdvd := (Nat.modEq_iff_dvd' (by omega)).mp hmod
    have := Nat.le_of_dvd (by omega) hdvd
    omega
  have htick : tickCore s = { s with now := (s.now + 1) % 2 ^ s.cfg.clkW } := by simp [tickCore, hno]
  refine ⟨htick, ?_⟩
  rw [htick]
  refine ⟨Nat.mod_lt _ (Nat.two_pow_pos _), by omega, by dsimp only; omega, h.armed, h.idle, ?_⟩
  dsimp only
  rw [h.cmp_eq, Nat.mod_add_mod]
  congr 1
  omega

/-- From a just-armed state the d-th TICK is the first to match (R165): every TICK brings the deadline closer until the
last, and the rest of the run is disarmed. -/
theorem firesAfter_of_justArmed {d : Nat} {s : State} (h : JustArmed d s) : FiresAfter d s := by
  intro cs hcs
  induction cs generalizing s d with
  | nil =>
    exact ⟨s, rfl, (Nat.mod_eq_of_lt h.now_lt).symm, fun _ => ⟨h.armed, h.idle⟩,
      fun hle => absurd h.pos (Nat.not_le_of_lt (Nat.lt_succ_of_le hle))⟩
  | cons i rest ih =>
    obtain ⟨hi, hrest⟩ := List.forall_mem_cons.mp hcs
    by_cases htick : i = .tick
    · subst htick
      rw [List.count_cons_self]
      rcases Nat.eq_or_lt_of_le h.pos with rfl | hd
      · have hexec := (exec_tick s).trans (congrArg _ (tickCore_last h))
        obtain ⟨t, hrun, hnow, harmed, hpend⟩ := execAll_disarmed rest
          { s with now := (s.now + 1) % 2 ^ s.cfg.clkW, cmpPend := true, armed := false } hrest rfl
          (Nat.mod_lt _ (Nat.two_pow_pos _))
        refine ⟨t, (execAll_cons hexec rest).trans hrun, ?_, fun hlt => by omega,
          fun _ => ⟨harmed, fun hno => hpend rfl (List.not_mem_of_not_mem_cons hno)⟩⟩
        rw [hnow, Nat.mod_add_mod]
        congr 1
        omega
      · obtain ⟨htick, hcloser⟩ := tickCore_counts h hd
        obtain ⟨t, hrun, hnow, hbefore, hafter⟩ := ih hcloser hrest
        refine ⟨t, (execAll_cons (exec_tick s) rest).trans hrun, ?_, fun hlt => hbefore (by omega), fun hle => ?_⟩
        · rw [hnow, htick, Nat.mod_add_mod]
          congr 1
          omega
        · obtain ⟨harmed, hpend⟩ := hafter (by omega)
          exact ⟨harmed, fun hno => hpend (List.not_mem_of_not_mem_cons hno)⟩
    · obtain ⟨u, hexec⟩ := everyCommandCompletes i s
      obtain ⟨hcfg, hnow, hcmp, harmed, hidle, -⟩ := exec_leaves_deadline hi htick hexec
      have hu : JustArmed d u := ⟨by rw [hnow, hcfg]; exact h.now_lt, h.pos, by rw [hcfg]; exact h.lt,
        harmed.trans h.armed, hidle h.idle, by rw [hcmp, hnow, hcfg]; exact h.cmp_eq⟩
      obtain ⟨t, hrun, hnow', hbefore, hafter⟩ := ih hu hrest
      rw [List.count_cons_of_ne htick]
      refine ⟨t, (execAll_cons hexec rest).trans hrun, by rw [hnow', hnow, hcfg], hbefore, fun hle => ?_⟩
      obtain ⟨hdisarmed, hpend⟩ := hafter hle
      exact ⟨hdisarmed, fun hno => hpend (List.not_mem_of_not_mem_cons hno)⟩

/-! ## The three ways to `ArmCore` -/

/-- A state that `ArmCore` leaves is just armed with its effective delay (R160). -/
theorem justArmed_of_fields {s t : State} {us : Nat} (hlegal : s.cfg.Legal) (hnow : s.now < 2 ^ s.cfg.clkW)
    (hcfg : t.cfg = s.cfg) (htnow : t.now = s.now)
    (hcmp : t.cmp = (s.now + effectiveDelay s.cfg us) % 2 ^ s.cfg.clkW) (harmed : t.armed = true)
    (hidle : t.cmpPend = false) : JustArmed (effectiveDelay s.cfg us) t := by
  obtain ⟨-, -, hmin, hmax, -⟩ := hlegal
  obtain ⟨hpos, hle⟩ := effectiveDelay_bounds s.cfg us hmin
  have := Nat.two_pow_pos s.cfg.clkW
  exact ⟨by rwa [htnow, hcfg], hpos, by rw [hcfg]; omega, harmed, hidle, by rw [hcmp, htnow, hcfg]⟩

/-- An `Advance` of MeasureRequested in SensorOff below the limit arms the settle deadline (R123). -/
theorem advanceCore_measureRequested {s : State} (hoff : s.fsm = .sensorOff)
    (hbelow : blkAt s (deepest s.cfg) ≠ 2 ^ s.cfg.bcW - 1) :
    ∃ t, advanceCore .measureRequested s = .ok t ∧ t.cfg = s.cfg ∧ t.now = s.now ∧
      t.cmp = (s.now + effectiveDelay s.cfg s.cfg.tSettleUs) % 2 ^ s.cfg.clkW ∧ t.armed = true ∧ t.cmpPend = false := by
  have hentry : tableEntry s.fsm .measureRequested s = startAcquisition s := by rw [hoff]; rfl
  rw [startAcquisition_eq, if_neg hbelow, armCore_eq] at hentry
  refine ⟨_, advanceCore_of_ok hentry, ?_⟩
  rw [enterState_eq]
  exact ⟨rfl, rfl, rfl, rfl, rfl⟩

/-! ## The settled statements -/

/-- Settles O38: `firesAfter_of_justArmed`, from the states that ARM, ADVANCE and GATE leave. -/
theorem deadlineFiresOnTime : Obligations.DeadlineFiresOnTime := by
  refine ⟨fun d s hlegal hnow hpos hle harmed hidle hcmp => ?justArmed, fun off s hlegal hnow => ?arm,
    fun s hlegal hnow hoff (hbelow : blkAt s (deepest s.cfg) ≠ 2 ^ s.cfg.bcW - 1) => ⟨?advance, fun hslot => ?gate⟩⟩
  case justArmed =>
    obtain ⟨-, -, -, hmax, -⟩ := hlegal
    have := Nat.two_pow_pos s.cfg.clkW
    exact firesAfter_of_justArmed ⟨hnow, hpos, by omega, harmed, hidle, hcmp⟩
  case arm =>
    have hexec : exec (.arm off) s = .next (armCore off.toNat s) := rfl
    rw [armCore_eq] at hexec
    exact ⟨_, hexec, rfl, firesAfter_of_justArmed (justArmed_of_fields hlegal hnow rfl rfl rfl rfl rfl)⟩
  case advance =>
    obtain ⟨u, hcore, hcfg, hunow, hcmp, harmed, hidle⟩ := advanceCore_measureRequested hoff hbelow
    have hexec : exec (.advance .measureRequested) s = finish s (advanceResult (advanceCore .measureRequested s)) := rfl
    rw [hcore] at hexec
    exact ⟨_, hexec, hunow, firesAfter_of_justArmed (justArmed_of_fields hlegal hnow hcfg hunow hcmp harmed hidle)⟩
  case gate =>
    obtain ⟨u, hcore, hcfg, hunow, hcmp, harmed, hidle⟩ := advanceCore_measureRequested (s := clearSlot s) hoff hbelow
    have hexec : exec .gate s = finish s (gateTake s) := by rw [exec_gate_eq, if_neg (by simp [hslot])]
    rw [gateTake, hslot, hcore] at hexec
    exact ⟨_, hexec, hunow, firesAfter_of_justArmed (justArmed_of_fields hlegal hnow hcfg hunow hcmp harmed hidle)⟩

/-- Settles O39: by induction on the number of TICKs, each of which counts and no more. -/
theorem noMatchUntilNextArm : Obligations.NoMatchUntilNextArm := by
  intro k s hdisarmed hnow
  induction k generalizing s with
  | zero =>
    have hstays : (s.now + 0) % 2 ^ s.cfg.clkW = s.now := Nat.mod_eq_of_lt hnow
    rw [hstays]
    rfl
  | succ k ih =>
    have hexec := (exec_tick s).trans (congrArg _ (tickCore_disarmed hdisarmed))
    have hrun := ih { s with now := (s.now + 1) % 2 ^ s.cfg.clkW } hdisarmed (Nat.mod_lt _ (Nat.two_pow_pos _))
    rw [List.replicate_succ, execAll_cons hexec, hrun]
    dsimp only
    rw [Nat.mod_add_mod, Nat.add_right_comm, Nat.add_assoc]

end Sys2Proof.Machine
